-- ==== Sys2Proof/Word.lean ====
section
/-! DEFINITION. The words of the cabinet memory bus, bytes, and values of the reference count. -/

namespace Sys2Proof

/-- A word of the cabinet memory bus: 32 bits (00_scope, Conventions). -/
abbrev Word := BitVec 32

/-- A byte: 8 bits. -/
abbrev Byte := BitVec 8

/-- A value of the reference count, in milliseconds; it wraps at 2^32 (R177). -/
abbrev Time := BitVec 32

/-- A crossing, numbered 1 to 8 in the manual; crossing n is the value n - 1. -/
abbrev Crossing := Fin 8

/-- A station, numbered 1 to 32; station n is the value n - 1. -/
abbrev Station := Fin 32

/-- An order slot, numbered 1 to 16; slot n is the value n - 1. -/
abbrev SlotIx := Fin 16

/-- A node address; 1 to 63 are in use, 0 is no address. -/
abbrev NodeAddr := Fin 64

/-- A walk pattern, P1 to P3; pattern n is the value n - 1. -/
abbrev Pattern := Fin 3

end Sys2Proof
end

