-- ==== Sys2Proof/Config.lean ====
section
/-! DEFINITION. The constants of the part, and the free values: constants with no body, so that nothing can be
proved of the value they give. -/

namespace Sys2Proof.Config

/-- A free choice of the part between two orders that the manual allows; applied to the counter
`State.freeCount` (log 8, 9 and 23). -/
opaque freeBool : Nat → Bool

/-- A free choice of one among several events that fall due in the same millisecond, or among the records of one event; applied to
the counter `State.freeCount` (log 2, 16). -/
opaque freeIndex : Nat → Nat

/-- Size of the window of shared memory in bytes (R182). -/
def windowBytes : Nat := 0x1000000
/-- Words of a site body (R184). -/
def bodyWords : Nat := 144
/-- Words of a configuration image: signature, length, body, checksum (R184). -/
def imageWords : Nat := 147
/-- Signature word of the configuration image (R184). -/
def imageSignature : Word := 0x47574B31#32
/-- Signature word of the anchor block (R159). -/
def anchorSignature : Word := 0x0000C3A5#32
/-- Words of the status table (R183). -/
def statusWords : Nat := 143
/-- Records the journal FIFO holds (R170). -/
def fifoDepth : Nat := 128
/-- Descriptors a journal list reaches at most (R171). -/
def listDescriptors : Nat := 64
/-- Scan period in ms (R18). -/
def scanPeriod : Nat := 50
/-- Period of looks at the chain in ms (R161). -/
def lookPeriod : Nat := 100
/-- Period of the status table in ms (R175). -/
def statusPeriod : Nat := 250
/-- Period of a stalled journal's re-read in ms (R171). -/
def rereadPeriod : Nat := 1000
/-- Life of the flush timer in ms (R172). -/
def flushTime : Nat := 1000
/-- Qualification of HOLD_IN in ms (R96). -/
def holdQualify : Nat := 100
/-- STARTUP lasts 3.0 s (R61). -/
def startupTime : Nat := 3000
/-- What a hold leaves of a walk, from the walk start: 4.0 s (R105). -/
def cutWalk : Nat := 4000
/-- A tone test ends after 3.0 s without a result (R30). -/
def toneTimeout : Nat := 3000
/-- Wait limit with no plan in force, in s (R94). -/
def defaultWaitLimit : Nat := 60
/-- Hold limit with no plan in force, in s (R94). -/
def defaultHoldLimit : Nat := 120
/-- A LOST head is probed at every 20th round (R19). -/
def probeRounds : Nat := 20
/-- Polls of a loop test (R31). -/
def loopPolls : Nat := 32
/-- Places of the prefetch buffer (R140). -/
def prefetchPlaces : Nat := 16
/-- A node without a valid poll for 1 s falls back (R23, R26). -/
def nodeWatch : Nat := 1000

end Sys2Proof.Config
end

