-- ==== Sys2Proof/Syntax.lean ====
section
/-! DEFINITION. The commands of the part: one constructor per row of spec/opcode_table.json, with what the event brings
from outside as its operands. -/

namespace Sys2Proof

/-- The six host registers (R177). -/
inductive Reg where
  | anchor | control | nudge | partState | attention | clock
  deriving DecidableEq, Repr

/-- How a read of one word of shared memory ends. -/
inductive ReadEnd where
  | word (w : Word)
  | busError
  deriving DecidableEq, Repr

/-- How a write of one word of shared memory ends; after a bus error the word may have been written or not
(R162). -/
inductive WriteEnd where
  | ok
  | busError (landed : Bool)
  deriving DecidableEq, Repr

/-- How a read of several words ends: all of them, or a bus error on one. -/
inductive WordsEnd where
  | words (ws : List Word)
  | busError
  deriving DecidableEq, Repr

/-- How a write of several words ends; at a bus error, how many words were written before the failed one. -/
inductive RunEnd where
  | ok
  | busError (written : Nat)
  deriving DecidableEq, Repr

/-- What the serial configuration memory answers to a read of the whole image: it stops answering at a word, it
gives what it was last given, or it gives other words (an image placed there by other means, or worn cells). -/
inductive MemoryAnswer where
  | silentAt (word : Nat)
  | stored
  | other (ws : List Word)
  deriving DecidableEq, Repr

/-- Source of a call entry (R41). -/
inductive Source where
  | station (st : Station)
  | remote
  deriving DecidableEq, Repr

/-- The commands: the steps of spec/opcode_table.json. -/
inductive Instr where
  /-- R179: power is good and RESET is high; `holdInLow` is the level HOLD_IN shows (R100). -/
  | powerOnOrExternalReset (holdInLow : Bool)
  /-- R179: the configuration memory read of LOADING ends. -/
  | configImageReadDone (answer : MemoryAnswer)
  /-- R160: a CONTROL write with START 1 and LINK_RESTART 0, and its enables. -/
  | startSet (enables : BitVec 5)
  /-- R166: a CONTROL write with START 0 and LINK_RESTART 0, and its enables. -/
  | startCleared (enables : BitVec 5)
  /-- R167: a CONTROL write with LINK_RESTART 1, and its START and enables. -/
  | linkRestart (start : Bool) (enables : BitVec 5)
  /-- R178: a CONTROL write that leaves START as it is. -/
  | attentionEnablesWrite (enables : BitVec 5)
  /-- R161, R171: a write of any value to NUDGE. -/
  | nudge (value : Word)
  /-- R178: a write to ATTENTION. -/
  | attentionClear (value : Word)
  /-- R177: a write of one word to a register. -/
  | registerWrite (reg : Reg) (value : Word)
  /-- R159: the read of the six anchor words ends. -/
  | anchorReadDone (answer : WordsEnd)
  /-- R161: the 100 ms period of looks. -/
  | chainLookDue
  /-- R161: the read of the watched block's link ends. -/
  | linkWordReadDone (answer : ReadEnd)
  /-- R162 step 2. -/
  | orderHeaderReadDone (answer : ReadEnd)
  /-- R162 step 3. -/
  | orderParamsReadDone (answer : WordsEnd)
  /-- R162 steps 4 and 5. -/
  | orderTakenWriteDone (answer : WriteEnd)
  /-- R10: the Site Table takes the LOAD_SITE order handed over in the slot. -/
  | loadSite (slot : SlotIx)
  /-- R180: the Configuration Memory Controller takes the STORE_SITE order; the level of WP then. -/
  | storeSite (slot : SlotIx) (wpHigh : Bool)
  /-- R88: the Plan Unit takes the LOAD_PLAN order. -/
  | loadPlan (slot : SlotIx)
  /-- R72: the crossing's sequencer takes the SET_MODE order. -/
  | setMode (slot : SlotIx)
  /-- R52: the Call Table takes the REMOTE_CALL order. -/
  | remoteCall (slot : SlotIx)
  /-- R53: the Call Table takes the CANCEL_CALLS order. -/
  | cancelCalls (slot : SlotIx)
  /-- R156: the Announcement Engine takes the ANNOUNCE order. -/
  | announce (slot : SlotIx)
  /-- R29: the Line Controller takes the TEST_STATION order. -/
  | testStation (slot : SlotIx)
  /-- R99: the Hold Logic takes the CORRIDOR_HOLD order. -/
  | corridorHold (slot : SlotIx)
  /-- R165: the write of word 2 of a result ends. -/
  | resultDetailWriteDone (answer : WriteEnd)
  /-- R165: the write of word 1 of a result ends. -/
  | resultStateWriteDone (answer : WriteEnd)
  /-- R11: one word read of a LOAD_SITE image ends. -/
  | imageWordReadDone (answer : ReadEnd)
  /-- R180: one write to the configuration memory ends: the level of WP, and whether the memory answers. -/
  | storeWriteDone (wpHigh : Bool) (answers : Bool)
  /-- R180: the read-back of the stored image ends. -/
  | storeReadbackDone (answer : MemoryAnswer)
  /-- R18: the 50 ms scan period. -/
  | scanRoundDue
  /-- R24: a head reply ends its exchange; its bytes. -/
  | headReply (bytes : List Byte)
  /-- R27: a station reply ends its exchange; its bytes. -/
  | stationReply (bytes : List Byte)
  /-- R31: an echo reply ends its exchange; its bytes. -/
  | echoReply (bytes : List Byte)
  /-- R16: the reply window ends with no reply begun. -/
  | replyWindowExpiry
  /-- R15: a reply is cut off 2.0 ms after its first byte. -/
  | replyCutOff
  /-- R15: bytes outside a reply window. -/
  | strayLineBytes (bytes : List Byte)
  /-- R30: 3.0 s from the first test poll. -/
  | toneTestTimeout (st : Station)
  /-- R47: the expiry time of the crossing's entry of that source. -/
  | callExpiry (c : Crossing) (src : Source)
  /-- R61. -/
  | startupExpiry (c : Crossing)
  /-- R62. -/
  | minGreenExpiry (c : Crossing)
  /-- R66. -/
  | amberExpiry (c : Crossing)
  /-- R102. -/
  | redBeforeWalkExpiry (c : Crossing)
  /-- R67. -/
  | walkEndExpiry (c : Crossing)
  /-- R68: a whole second of CLEARANCE. -/
  | countdownSecond (c : Crossing)
  /-- R68: the end of CLEARANCE. -/
  | clearanceExpiry (c : Crossing)
  /-- R69. -/
  | redAfterWalkExpiry (c : Crossing)
  /-- R89. -/
  | cycleTick
  /-- R96: HOLD_IN changes its level. -/
  | holdInEdge (low : Bool)
  /-- R96: the new level has stood for 100 ms. -/
  | holdInQualified
  /-- R98. -/
  | holdTimerExpiry
  /-- R131: the request at the head of the queue is answered. -/
  | cueGrant
  /-- R144: the n-th of the phrase reads outstanding ends (counted from 0). -/
  | phraseReadDone (n : Nat) (answer : ReadEnd)
  /-- R171: the read of the descriptor's first two words ends. -/
  | descriptorReadDone (answer : WordsEnd)
  /-- R171: the 1 s period of a stalled journal. -/
  | stallRereadDue
  /-- R172: the writes of the head record end. -/
  | recordWriteDone (answer : RunEnd)
  /-- R172. -/
  | flushTimerExpiry
  /-- R172: the close writes end. -/
  | bufferCloseWriteDone (answer : RunEnd)
  /-- R175: the 250 ms period of the status table. -/
  | statusPeriodDue
  /-- R176: the write of one word of the status table ends. -/
  | statusWordWriteDone (answer : WriteEnd)
  /-- R179: power fails or RESET goes low. -/
  | heldInReset
  deriving DecidableEq, Repr

end Sys2Proof
end

