-- ==== Sys2Proof/Machine/State.lean ====
section
/-! DEFINITION. The state of the part as plain data, block by block, and its value right after reset. -/

namespace Sys2Proof.Machine

/-! ### Names of the manual -/

/-- Part state (R119). -/
inductive PartState where
  | loading | running | lockout
  deriving DecidableEq, Repr, Inhabited

/-- Link state (R160). -/
inductive LinkState where
  | stopped | following | halted
  deriving DecidableEq, Repr, Inhabited

/-- Journal state (R173). -/
inductive JournalState where
  | idle | writing | stalled | faulted
  deriving DecidableEq, Repr, Inhabited

/-- Presence of the configuration image (R179). -/
inductive Presence where
  | absent | valid | invalid
  deriving DecidableEq, Repr, Inhabited

/-- Vehicle aspects (00_scope, Terms). -/
inductive VehAspect where
  | dark | green | amber | red | flashAmber
  deriving DecidableEq, Repr, Inhabited

/-- Pedestrian aspects (00_scope, Terms). -/
inductive PedAspect where
  | dark | dontWalk | walk | flashDontWalk
  deriving DecidableEq, Repr, Inhabited

/-- A pair of aspects. -/
structure Pair where
  veh : VehAspect
  ped : PedAspect
  deriving DecidableEq, Repr, Inhabited

/-- Mode of a crossing (R57). -/
inductive Mode where
  | dark | maint | runFree | runCoord
  deriving DecidableEq, Repr, Inhabited

/-- State of a crossing (R57). -/
inductive CrossingState where
  | dark | maint | flash | startup | vehGreen | vehAmber | redBeforeWalk | walk | clearance | redAfterWalk
  deriving DecidableEq, Repr, Inhabited

/-- Order kinds, in the order of R163. -/
inductive OrderKind where
  | loadSite | storeSite | loadPlan | setMode | remoteCall | cancelCalls | announce | testStation | corridorHold
  deriving DecidableEq, Repr, Inhabited

/-- Result codes, in the order of R163. -/
inductive ResultCode where
  | ok | badKind | badParam | bounds | busy | notReady | superseded | writeProtected | nodeLost | memfault | aborted
  deriving DecidableEq, Repr, Inhabited

/-- Outcome in a PRESS record (R169). -/
inductive PressOutcome where
  | entered | merged | upgraded | absorbed | ignored | stuck
  deriving DecidableEq, Repr, Inhabited

/-- Outcome of an announcement, in the order of R156. -/
inductive AnnOutcome where
  | completed | cut | busy | fetchFault | formatFault | notRunning | stationLost
  deriving DecidableEq, Repr, Inhabited

/-- Cause in a STATE record (R60). -/
inductive Cause where
  | timer | call | hold | order | fault
  deriving DecidableEq, Repr, Inhabited

/-- Kind in a FAULT record (R169). -/
inductive FaultKind where
  | conflict | mismatch | headLost | flashUnproven | lamp
  deriving DecidableEq, Repr, Inhabited

/-- Event in a HOLD record (R97). -/
inductive HoldEvent where
  | began | ended | spent | released
  deriving DecidableEq, Repr, Inhabited

/-- Source in a HOLD record (R97). -/
inductive HoldSource where
  | pin | order | both
  deriving DecidableEq, Repr, Inhabited

/-- Cause in a CALL_DROPPED record (R169). -/
inductive DropCause where
  | cancelled | notRunning | lockout
  deriving DecidableEq, Repr, Inhabited

/-- Kinds of station test (R29). -/
inductive TestKind where
  | tone | loop
  deriving DecidableEq, Repr, Inhabited

/-- Hold state (R96). -/
inductive HoldState where
  | idle | active | spent
  deriving DecidableEq, Repr, Inhabited

/-- Proof state (R107). -/
inductive ProofState where
  | waived | checking | steady
  deriving DecidableEq, Repr, Inhabited

/-! ### Journal records (R169) -/

/-- The fields of a journal record, by kind. -/
inductive RecordBody where
  | press (st : Station) (outcome : PressOutcome) (gradeAfter : Nat)
  | callServed (grade : Nat) (accessible : Bool) (calls : Nat) (absorbed : Nat) (wait : Time)
  | state (old new : CrossingState) (cause : Cause)
  | cue (grant : Option Pattern)
  | announceEnd (st : Station) (outcome : AnnOutcome) (order : Bool) (slot : Nat) (clips : Nat)
  | node (addr : Nat) (found : Bool) (good violation miss : Nat)
  | fault (kind : FaultKind) (commanded : Pair) (proven : Option Pair) (lamps : BitVec 4)
  | hold (event : HoldEvent) (source : HoldSource)
  | plan (id : BitVec 16) (superseded : Bool)
  | callDropped (count : Nat) (cause : DropCause)
  | escalated (source : Source)
  | gap (lost : Nat)
  deriving DecidableEq, Repr

/-- A journal record: crossing number (0: none), reference count at its making, fields. -/
structure JournalRecord where
  crossing : Nat
  time : Time
  body : RecordBody
  deriving DecidableEq, Repr

/-! ### Orders -/

/-- A ticket: a slot with the use number it had (R164). -/
structure Ticket where
  slot : SlotIx
  use : BitVec 8
  deriving DecidableEq, Repr, Inhabited

/-- A phrase descriptor: byte address and length (R138). -/
structure Desc where
  addr : Nat
  len : Nat
  deriving DecidableEq, Repr, Inhabited

/-- A plan, as a LOAD_PLAN order gives it (R87); durations in seconds. -/
structure Plan where
  id : BitVec 16
  cycle : Nat
  closedMask : Nat
  waitLimit : Nat
  holdLimit : Nat
  start : Vector Nat 8
  width : Vector Nat 8
  deriving DecidableEq, Repr, Inhabited

/-- Target of an ANNOUNCE order (R156). -/
inductive Target where
  | station (st : Station)
  | crossing (c : Crossing)
  deriving DecidableEq, Repr

/-- An order that has passed the checks at taking, with its parameters (R163). -/
inductive OrderBody where
  | loadSite (addr : Nat)
  | storeSite
  | loadPlan (plan : Plan)
  | setMode (c : Crossing) (target : Mode)
  | remoteCall (c : Crossing) (grade : Nat) (accessible : Bool)
  | cancelCalls (c : Crossing) (all : Bool)
  | announce (target : Target) (priority : Nat) (descs : List Desc)
  | testStation (st : Station) (kind : TestKind)
  | corridorHold (on : Bool)
  deriving DecidableEq, Repr

/-- The owner of an order (R163). -/
inductive Owner where
  | siteTable | configMemory | planUnit | sequencer (c : Crossing) | callTable | engine | lineController | holdLogic
  deriving DecidableEq, Repr

/-- An order handed to its owner, which has not yet taken it. -/
structure Handed where
  ticket : Ticket
  body : OrderBody
  deriving DecidableEq, Repr

/-- What an OPEN or HELD slot records of its order: block address, kind byte, parameter length and notify flag,
as read (R164). -/
structure OrderHead where
  block : Nat
  kind : Nat
  len : Nat
  notify : Bool
  deriving DecidableEq, Repr, Inhabited

/-- A result: code, and the detail in its place of word 2 (R165, R183). -/
structure Result where
  code : ResultCode
  detail : Word
  deriving DecidableEq, Repr, Inhabited

/-- State of a slot (R164). -/
inductive SlotState where
  | free
  | occupied (head : OrderHead)
  | finished (head : OrderHead) (result : Result)
  deriving DecidableEq, Repr, Inhabited

/-- An order slot: its use number, and FREE, OPEN (`occupied`) or HELD (`finished`) (R164). -/
structure Slot where
  use : BitVec 8
  state : SlotState
  deriving DecidableEq, Repr, Inhabited

/-- The one access of the Order Unit under way (R159-R165). -/
inductive OrderAccess where
  | idle
  /-- An anchor read: its address, whether it is that of a LINK_RESTART, and whether the link joins the chain at its end:
  START was set at its beginning and has not been cleared since (R166). -/
  | anchor (addr : Nat) (restart joins : Bool)
  | link
  | header (block : Nat)
  | params (head : OrderHead)
  | taken (head : OrderHead) (params : List Word)
  | detail (slot : SlotIx) (head : OrderHead) (result : Result)
  | state (slot : SlotIx) (head : OrderHead) (result : Result)
  deriving DecidableEq, Repr, Inhabited

/-- The Order Unit (chapter 9). -/
structure OrderUnit where
  link : LinkState
  watched : Option Nat
  saved : Option Nat
  slots : Vector Slot 16
  /-- HELD slots in the order in which they became HELD (R165). -/
  heldQueue : List SlotIx
  access : OrderAccess
  /-- A LINK_RESTART waits for the access under way to end (R167). -/
  restarting : Bool
  /-- START has been cleared and the link stops when the access under way is finished (R166). -/
  stopping : Bool
  lookDue : Bool
  nextLook : Time
  handed : List Handed
  deriving DecidableEq, Repr

/-! ### The site -/

/-- A crossing record (R2), in the units of the image. -/
structure CrossingRec where
  headAddr : Nat
  width : Nat
  walkTime : Nat
  extension : Nat
  minGreen : Nat
  amber : Nat
  redBefore : Nat
  redAfter : Nat
  normalSpeed : Nat
  accessibleSpeed : Nat
  home : Nat
  volumeCap : Nat
  longPress : Nat
  autoStart : Bool
  neighbours : List Nat
  name : List Nat
  info : List Desc
  deriving DecidableEq, Repr, Inhabited

/-- A station record (R3): node address, crossing number, kerb (0 A, 1 B). -/
structure StationRec where
  addr : Nat
  crossing : Nat
  kerb : Nat
  deriving DecidableEq, Repr, Inhabited

/-- A site (R1): a slot is present when it is `some`. -/
structure Site where
  crossings : Vector (Option CrossingRec) 8
  stations : Vector (Option StationRec) 32
  deriving DecidableEq, Repr

/-- An entry of the node map (R8). -/
inductive NodeKind where
  | none
  | head (c : Crossing)
  | station (st : Station)
  deriving DecidableEq, Repr, Inhabited

/-- A LOAD_SITE in progress: its order, image address, and the words of the staging copy so far (R11). -/
structure Load where
  ticket : Ticket
  addr : Nat
  staging : List Word
  deriving DecidableEq, Repr

/-- The Site Table (chapter 1). -/
structure SiteTable where
  inForce : Option Site
  nodeMap : Vector NodeKind 64
  hearing : Vector (List Crossing) 8
  names : Vector (List Nat) 8
  /-- Phrase base and phrase limit of the last anchor read that succeeded (R5). -/
  phraseArea : Option (Nat × Nat)
  usable : Vector (List Bool) 8
  load : Option Load
  deriving DecidableEq, Repr

/-- A STORE_SITE in progress: its order, the image, how many of its 148 writes are done (at 148 it reads back), and the
word of the first write that WP low made the memory refuse (R180). -/
structure Store where
  ticket : Ticket
  image : List Word
  done : Nat
  refusedAt : Option Nat
  deriving DecidableEq, Repr

/-- The Configuration Memory Controller and the memory it serves (R179-R181). -/
structure ConfigMemory where
  presence : Presence
  store : Option Store
  stored : List Word
  deriving DecidableEq, Repr

/-! ### The street line -/

/-- State sounds of a station (R122). -/
inductive Sound where
  | silent | locator | clearTick
  | walkPattern (p : Pattern)
  | nameCue
  deriving DecidableEq, Repr, Inhabited

/-- Audio command of a STATION poll (R25). -/
inductive AudioCmd where
  | sound (s : Sound)
  | clips | flush | ackTone | toneTest
  deriving DecidableEq, Repr, Inhabited

/-- Content of a STATION poll (R25, R185). -/
structure StationPoll where
  cmd : AudioCmd
  clips : List Nat
  volume : Nat
  lamp : Bool
  tactile : Bool
  cueLen : Nat
  cuePos : Nat
  deriving DecidableEq, Repr, Inhabited

/-- A POLL frame's content (R15). -/
inductive Poll where
  | normal (pair : Pair) (countdown : Nat)
  | probe
  | station (poll : StationPoll)
  | test (k : Nat)
  deriving DecidableEq, Repr

/-- The exchange in progress (R15). -/
structure Exchange where
  addr : NodeAddr
  poll : Poll
  deriving DecidableEq, Repr

/-- A node table entry (R17, R19, R20, R27). -/
structure NodeEntry where
  lost : Bool
  failRun : Nat
  goodRun : Nat
  good : Nat
  violation : Nat
  miss : Nat
  probeCount : Nat
  ambient : Nat
  speaker : Bool
  deriving DecidableEq, Repr, Inhabited

/-- Test state of a station (R29-R31). A tone test has an end time once its first test poll is sent; a loop test
counts the polls sent and the exact echoes. -/
inductive TestState where
  | none
  | tone (ticket : Ticket) (deadline : Option Time)
  | loop (ticket : Ticket) (sent : Nat) (exact : Nat)
  deriving DecidableEq, Repr, Inhabited

/-- The Line Controller (chapter 2). -/
structure Line where
  nodes : Vector (Option NodeEntry) 64
  /-- While a round is in progress: the lowest address it has still to visit (R18). -/
  scanPos : Option Nat
  roundsWaiting : Nat
  nextRound : Time
  exchange : Option Exchange
  tests : Vector TestState 32
  lastPollTest : Vector Bool 32
  flushPending : Vector Bool 32
  ackPending : Vector Bool 32
  confirmed : Vector (Option Sound) 32
  deriving DecidableEq, Repr

/-! ### Presses and calls -/

/-- Press state of a station (R34). -/
structure PressState where
  last : Option Nat
  inProgress : Bool
  longTaken : Bool
  stuck : Bool
  deriving DecidableEq, Repr, Inhabited

/-- A call entry (R41); its crossing is the list it stands in. -/
structure Entry where
  source : Source
  grade : Nat
  accessible : Bool
  recalled : Bool
  arrival : Time
  expiry : Option Time
  deriving DecidableEq, Repr

/-! ### The crossings -/

/-- A service record (R70). -/
structure Service where
  grade : Nat
  accessible : Bool
  callsTaken : Nat
  oldest : Time
  absorbed : Nat
  entries : List Entry
  deriving DecidableEq, Repr

/-- A pending SET_MODE order: START or STOP, its target, its ticket (R57, R73). -/
structure PendingOrder where
  ticket : Ticket
  start : Bool
  target : Mode
  deriving DecidableEq, Repr

/-- A crossing record (R57). -/
structure CrossingRecord where
  mode : Mode
  state : CrossingState
  timer : Option Time
  /-- Minimum green end and elapsed flag. -/
  minGreen : Option (Time × Bool)
  walkStart : Option Time
  walkCut : Bool
  countdown : Nat
  mask : Nat
  planMask : Nat
  order : Option PendingOrder
  service : Option Service
  recalled : Bool
  deriving DecidableEq, Repr, Inhabited

/-! ### Plan, hold, proof, cues -/

/-- The Plan Unit (R87). -/
structure PlanUnit where
  inForce : Option Plan
  waiting : Option (Plan × Ticket)
  position : Nat
  nextTick : Option Time
  windowOpen : Vector Bool 8
  mask : Vector Nat 8
  deriving DecidableEq, Repr

/-- The Hold Logic (R96), with the raw level of HOLD_IN and the end of its qualification. -/
structure HoldLogic where
  state : HoldState
  hostFlag : Bool
  pinActive : Bool
  timer : Option Time
  rawActive : Bool
  qualify : Option Time
  deriving DecidableEq, Repr

/-- A proof record (R107). Lamp-fault flags in the order of R23, bit 0 the vehicle red. -/
structure ProofRec where
  headAddr : Nat
  commanded : Pair
  proven : Option Pair
  lamps : BitVec 4
  state : ProofState
  allowance : Nat
  flashCheck : Bool
  deriving DecidableEq, Repr, Inhabited

/-- A crossing's cue (R130). -/
inductive Cue where
  | none | awaiting
  | pattern (p : Pattern)
  | name
  deriving DecidableEq, Repr, Inhabited

/-- The Cue Allocator (R130); the pattern pool is the view `holders`. -/
structure CueAllocator where
  cue : Vector Cue 8
  queue : List Crossing
  namePos : Vector Nat 32
  deriving DecidableEq, Repr

/-! ### Announcements -/

/-- Origin of a request (R140). -/
inductive Origin where
  | station
  | order (ticket : Option Ticket)
  deriving DecidableEq, Repr

/-- A filled position of a prefetch buffer (R140). -/
inductive Place where
  | good (clip : Nat)
  | fetchFault
  | formatFault
  deriving DecidableEq, Repr, Inhabited

/-- An announcement in a context (R140). `buffer` holds the filled positions, for the places from the confirmed
cursor onward: the fetch cursor stands at `confirmed + buffer.length`. -/
structure Context where
  suspended : Bool
  priority : Nat
  origin : Origin
  hasName : Bool
  descs : List Desc
  send : Nat
  confirmed : Nat
  buffer : List Place
  readInFlight : Bool
  serial : Nat
  deriving DecidableEq, Repr

/-- The tally of an ANNOUNCE order: targets to come, and the seven counts in the order of R156. -/
structure Tally where
  ticket : Ticket
  toCome : Nat
  counts : Vector Nat 7
  deriving DecidableEq, Repr

/-- A phrase read outstanding: the station and the number of the announcement it was issued for, and the address
of the word (R143). -/
structure PhraseRead where
  st : Station
  serial : Nat
  addr : Nat
  deriving DecidableEq, Repr

/-- The Announcement Engine (chapter 8); a context that is `none` is IDLE. -/
structure Engine where
  contexts : Vector (Option Context) 32
  baseline : Vector (Option Nat) 32
  room : Vector (Option Nat) 32
  tallies : List Tally
  reads : List PhraseRead
  nextSerial : Nat
  deriving DecidableEq, Repr

/-! ### Journal and status table -/

/-- The current buffer (R171, R172). `weight` counts the records it holds, a GAP by what it carries (R174). -/
structure Buffer where
  addr : Nat
  capacity : Nat
  last : Bool
  used : Nat
  weight : Nat
  flushEnd : Option Time
  flushExpired : Bool
  deriving DecidableEq, Repr

/-- The access of the Journal Writer under way; a close carries its close time (R172). -/
inductive JournalAccess where
  | idle | descriptor | record
  | close (time : Time)
  deriving DecidableEq, Repr, Inhabited

/-- The Journal Writer (chapter 10). -/
structure JournalWriter where
  fifo : List JournalRecord
  lost : Nat
  state : JournalState
  listAddr : Option Nat
  cursor : Nat
  current : Option Buffer
  access : JournalAccess
  nextReread : Option Time
  /-- A re-read fell due while the stalled descriptor was being read; it is made when that read ends (R171). -/
  rereadDue : Bool
  deriving DecidableEq, Repr

/-- The Status Writer (R175, R176). `write` is the table write in progress: its address and the number of word
writes done, of 144. -/
structure StatusWriter where
  generation : Word
  stopped : Bool
  addr : Option Nat
  nextDue : Option Time
  write : Option (Nat × Nat)
  deriving DecidableEq, Repr

/-! ### Registers -/

/-- What the host registers store (R177, R178). -/
structure Registers where
  anchor : Word
  start : Bool
  enables : BitVec 5
  attention : BitVec 5
  deriving DecidableEq, Repr

/-! ### The nodes on the line, as the part's polls leave them (log 23) -/

/-- A head node (R23): what it shows, and the end of its one-second watch (none once expired). -/
structure HeadNode where
  shown : Pair
  countdown : Nat
  watch : Option Time
  deriving DecidableEq, Repr, Inhabited

/-- A station node (R26, R123, R128). -/
structure StationNode where
  clipQueue : List Nat
  sound : Sound
  store : Vector (Option Nat) 16
  cueLen : Nat
  toneTest : Bool
  volume : Nat
  lamp : Bool
  tactile : Bool
  /-- Played counter, press counter and button DOWN, as the last reply gave them. -/
  played : Nat
  pressCounter : Nat
  down : Bool
  watch : Option Time
  deriving DecidableEq, Repr

/-- The nodes by address. -/
structure Street where
  heads : Vector HeadNode 64
  stations : Vector StationNode 64
  deriving DecidableEq, Repr

/-! ### The whole -/

/-- The state of the part, with what its rules make of shared memory and of the nodes, and the queue of the
commands that wait. -/
structure State where
  now : Time
  /-- Held in reset (R179). -/
  held : Bool
  part : PartState
  /-- SAFE_OUT is closed (R119). -/
  safeOut : Bool
  /-- WP is high (R180). -/
  wp : Bool
  regs : Registers
  site : SiteTable
  config : ConfigMemory
  line : Line
  press : Vector PressState 32
  calls : Vector (List Entry) 8
  lamps : Vector Bool 32
  crossings : Vector CrossingRecord 8
  plan : PlanUnit
  hold : HoldLogic
  proofs : Vector (Option ProofRec) 8
  cues : CueAllocator
  ann : Engine
  orders : OrderUnit
  journal : JournalWriter
  status : StatusWriter
  street : Street
  /-- Bytes of shared memory the part has written (log 1). -/
  mem : List Host.Cell
  /-- Free values drawn so far (log 29). -/
  freeCount : Nat
  /-- The records made in the event under way, which enter the journal FIFO at its end; empty between events (log 16). -/
  made : List JournalRecord
  pending : List Instr
  deriving DecidableEq, Repr

/-- Faults that stop the machine: the manual names none, so there is no constructor and no meaning can raise one
(safe: nothing stops). -/
inductive Fault where
  deriving DecidableEq, Repr

/-- Refusals. -/
inductive Refusal where
  /-- Raised by no meaning; an arm of `exec` without a meaning would answer with it (safe: it stops). -/
  | notModelled (mnemonic : String)
  deriving DecidableEq, Repr

/-! ### Reset (R179, and the table of resets of every chapter) -/

/-- The pair DARK and DARK. -/
def Pair.dark : Pair := ⟨.dark, .dark⟩
/-- The pair FLASH_AMBER and DARK. -/
def Pair.flash : Pair := ⟨.flashAmber, .dark⟩

/-- A press state cleared (R34). -/
def PressState.cleared : PressState := ⟨none, false, false, false⟩

/-- A crossing record after a power-on or external reset (R86). -/
def CrossingRecord.reset : CrossingRecord :=
  { mode := .dark, state := .dark, timer := none, minGreen := none, walkStart := none, walkCut := false,
    countdown := 0, mask := 0, planMask := 0, order := none, service := none, recalled := false }

/-- The Site Table after a power-on or external reset (R14). -/
def SiteTable.reset : SiteTable :=
  { inForce := none, nodeMap := Vector.replicate 64 .none, hearing := Vector.replicate 8 [],
    names := Vector.replicate 8 [], phraseArea := none, usable := Vector.replicate 8 [], load := none }

/-- The Line Controller after a power-on or external reset (R33, R137). The scan period is counted from the count
0 (DEDUCED, log 7), and no station's poll before the reset counts as one that carried a test (DESIGN CHOICE, log 43). -/
def Line.reset : Line :=
  { nodes := Vector.replicate 64 none, scanPos := none, roundsWaiting := 0,
    nextRound := BitVec.ofNat 32 Config.scanPeriod, exchange := none,
    tests := Vector.replicate 32 .none, lastPollTest := Vector.replicate 32 false,
    flushPending := Vector.replicate 32 false, ackPending := Vector.replicate 32 false,
    confirmed := Vector.replicate 32 none }

/-- The Plan Unit after a power-on or external reset (R95). -/
def PlanUnit.reset : PlanUnit :=
  { inForce := none, waiting := none, position := 0, nextTick := none,
    windowOpen := Vector.replicate 8 true, mask := Vector.replicate 8 0 }

/-- The Hold Logic after a power-on or external reset, at the level HOLD_IN then shows (R100). -/
def HoldLogic.reset (low : Bool) : HoldLogic :=
  { state := .idle, hostFlag := false, pinActive := low, timer := none, rawActive := low, qualify := none }

/-- The Cue Allocator after a power-on or external reset (R137). -/
def CueAllocator.reset : CueAllocator :=
  { cue := Vector.replicate 8 .none, queue := [], namePos := Vector.replicate 32 0 }

/-- The Announcement Engine after a power-on or external reset (R158). -/
def Engine.reset : Engine :=
  { contexts := Vector.replicate 32 none, baseline := Vector.replicate 32 none,
    room := Vector.replicate 32 none, tallies := [], reads := [], nextSerial := 0 }

/-- The Order Unit after a power-on or external reset (R168). The look period is counted from the count 0
(DEDUCED, log 7). -/
def OrderUnit.reset : OrderUnit :=
  { link := .stopped, watched := none, saved := none, slots := Vector.replicate 16 ⟨0, .free⟩,
    heldQueue := [], access := .idle, restarting := false, stopping := false, lookDue := false,
    nextLook := BitVec.ofNat 32 Config.lookPeriod, handed := [] }

/-- The Journal Writer after a power-on or external reset (R174). -/
def JournalWriter.reset : JournalWriter :=
  { fifo := [], lost := 0, state := .idle, listAddr := none, cursor := 0, current := none,
    access := .idle, nextReread := none, rereadDue := false }

/-- The Status Writer after a power-on or external reset (R176). -/
def StatusWriter.reset : StatusWriter :=
  { generation := 0, stopped := false, addr := none, nextDue := none, write := none }

/-- A head node that has fallen back (R23). -/
def HeadNode.fallback : HeadNode := { shown := Pair.flash, countdown := 0, watch := none }

/-- A station node that has fallen quiet (R26) and reports its counters at 0. The volume 0 and the ended tone run are the model's
(DESIGN CHOICE, log 46). -/
def StationNode.quiet : StationNode :=
  { clipQueue := [], sound := .silent, store := Vector.replicate 16 none, cueLen := 0, toneTest := false,
    volume := 0, lamp := false, tactile := false, played := 0, pressCounter := 0, down := false, watch := none }

/-- The machine right after reset (R179): LOADING, SAFE_OUT open, HOLD_IN high and WP low, a blank configuration
memory, no byte of shared memory written by the part (DESIGN CHOICE for the pins and the memory, log 6). -/
def State.reset : State :=
  { now := 0, held := false, part := .loading, safeOut := false, wp := false,
    regs := { anchor := 0, start := false, enables := 0, attention := 0 },
    site := SiteTable.reset,
    config := { presence := .absent, store := none, stored := List.replicate Config.imageWords 0 },
    line := Line.reset,
    press := Vector.replicate 32 PressState.cleared,
    calls := Vector.replicate 8 [],
    lamps := Vector.replicate 32 false,
    crossings := Vector.replicate 8 CrossingRecord.reset,
    plan := PlanUnit.reset,
    hold := HoldLogic.reset false,
    proofs := Vector.replicate 8 none,
    cues := CueAllocator.reset,
    ann := Engine.reset,
    orders := OrderUnit.reset,
    journal := JournalWriter.reset,
    status := StatusWriter.reset,
    street := { heads := Vector.replicate 64 HeadNode.fallback, stations := Vector.replicate 64 StationNode.quiet },
    mem := [],
    freeCount := 0,
    made := [],
    pending := [] }

end Sys2Proof.Machine
end

