-- ==== Sys2Proof/Machine/Ops.lean ====
section
/-! DEFINITION. Named operations over words, times, tables and the written bytes of shared memory, and the views of State
that several blocks use. -/

namespace Sys2Proof.Machine

/-! ### Numbers and words -/

/-- The manual's number of a crossing, station, slot or pattern: 1 for the first. -/
def num {n : Nat} (i : Fin n) : Nat := i.val + 1

/-- Byte k of a word, byte 0 the least significant (R182). -/
def byteAt (w : Word) (k : Nat) : Nat := w.toNat / 256 ^ k % 256

/-- Bits lo to lo + len - 1 of a word (R182). -/
def bitsAt (w : Word) (lo len : Nat) : Nat := w.toNat / 2 ^ lo % 2 ^ len

/-- A flag as its bit (R182). -/
def flagBit (b : Bool) : Nat := if b then 1 else 0

/-- The word whose bytes 0 to 3 are given (R182). -/
def wordOf (b0 b1 b2 b3 : Nat) : Word := BitVec.ofNat 32 (b0 + b1 * 256 + b2 * 65536 + b3 * 16777216)

/-- The word whose low and high halves are given. -/
def wordOfHalves (lo hi : Nat) : Word := BitVec.ofNat 32 (lo + hi * 65536)

/-! ### Time (R58, and 00_scope, Time) -/

/-- The count has reached a time: the difference modulo 2^32 lies in the lower half. -/
def reached (now t : Time) : Bool := decide ((now - t).toNat < 2147483648)

/-- A time so many milliseconds after another. -/
def after (t : Time) (ms : Nat) : Time := t + BitVec.ofNat 32 ms

/-- An end time that is set has been reached. -/
def due (now : Time) : Option Time → Bool
  | some t => reached now t
  | none => false

/-! ### Tables -/

/-- Change one entry of a table. -/
def upd {α : Type} {n : Nat} (v : Vector α n) (i : Fin n) (f : α → α) : Vector α n := v.set i (f v[i])

/-- Set the entries of a table that a list names. -/
def setAll {α : Type} {n : Nat} (v : Vector α n) (is : List (Fin n)) (x : α) : Vector α n :=
  is.foldl (fun (v : Vector α n) (i : Fin n) => v.set i x) v

/-- All crossings, in ascending order. -/
def allCrossings : List Crossing := List.finRange 8
/-- All stations, in ascending order. -/
def allStations : List Station := List.finRange 32

/-! ### Bytes of shared memory the part has written (log 1)

A list of (address, byte) pairs, addresses strictly rising; an address not listed reads as no value. -/

/-- Write one byte. -/
def Memory.write : List Host.Cell → Nat → Byte → List Host.Cell
  | [], a, b => [(a, b)]
  | (a', b') :: m, a, b =>
    if a < a' then (a, b) :: (a', b') :: m
    else if a = a' then (a, b) :: m
    else (a', b') :: Memory.write m a b

/-- The byte at an address: none where the part has written nothing. -/
def Memory.read : List Host.Cell → Nat → Option Byte
  | [], _ => none
  | (a', b') :: m, a => if a = a' then some b' else Memory.read m a

/-- The canonical form: addresses strictly rising. -/
def Memory.wf : List Host.Cell → Bool
  | [] => true
  | (a, _) :: m => (match m with | [] => true | (a', _) :: _ => decide (a < a')) && Memory.wf m

/-- Write one word, little-endian (00_scope, Shared memory). -/
def Memory.writeWord (m : List Host.Cell) (a : Nat) (w : Word) : List Host.Cell :=
  Memory.write (Memory.write (Memory.write (Memory.write m
    a (BitVec.ofNat 8 (byteAt w 0)))
    (a + 1) (BitVec.ofNat 8 (byteAt w 1)))
    (a + 2) (BitVec.ofNat 8 (byteAt w 2)))
    (a + 3) (BitVec.ofNat 8 (byteAt w 3))

/-- The word at an address, where the part has written all four bytes. -/
def Memory.readWord (m : List Host.Cell) (a : Nat) : Option Word := do
  let b0 ← Memory.read m a
  let b1 ← Memory.read m (a + 1)
  let b2 ← Memory.read m (a + 2)
  let b3 ← Memory.read m (a + 3)
  pure (wordOf b0.toNat b1.toNat b2.toNat b3.toNat)

/-- Write words one after another in ascending address order. -/
def Memory.writeWords : List Host.Cell → Nat → List Word → List Host.Cell
  | m, _, [] => m
  | m, a, w :: ws => Memory.writeWords (Memory.writeWord m a w) (a + 4) ws

/-- A run of n bytes from an address lies wholly inside the window (R182). -/
def inWindow (a n : Nat) : Bool := decide (a + n ≤ Config.windowBytes)

/-! ### Views of the site (R1-R3) -/

/-- The record of a crossing the site in force configures. -/
def crossingRec? (s : State) (c : Crossing) : Option CrossingRec :=
  match s.site.inForce with
  | some site => site.crossings[c]
  | none => none

/-- The record of a crossing (all zero for one that is not configured, which no rule uses). -/
def crossingRec (s : State) (c : Crossing) : CrossingRec := (crossingRec? s c).getD default

/-- The crossing is configured (R1). -/
def configured (s : State) (c : Crossing) : Bool := (crossingRec? s c).isSome

/-- The record of a station the site in force configures. -/
def stationRec? (s : State) (st : Station) : Option StationRec :=
  match s.site.inForce with
  | some site => site.stations[st]
  | none => none

/-- The crossing of number n. -/
def crossingOfNum (n : Nat) : Option Crossing := if h : 1 ≤ n ∧ n ≤ 8 then some ⟨n - 1, by omega⟩ else none

/-- The station of number n. -/
def stationOfNum (n : Nat) : Option Station := if h : 1 ≤ n ∧ n ≤ 32 then some ⟨n - 1, by omega⟩ else none

/-- The node of an address 1 to 63. -/
def nodeOfNum (n : Nat) : Option NodeAddr := if h : 1 ≤ n ∧ n ≤ 63 then some ⟨n, by omega⟩ else none

/-- The crossing of a station (R3). -/
def crossingOf (s : State) (st : Station) : Option Crossing :=
  match stationRec? s st with
  | some r => crossingOfNum r.crossing
  | none => none

/-- The stations of a crossing, in ascending order (R3). -/
def stationsOf (s : State) (c : Crossing) : List Station :=
  allStations.filter (fun st => decide (crossingOf s st = some c))

/-- The node table entry of a station. -/
def stationNode (s : State) (st : Station) : Option NodeEntry :=
  match stationRec? s st with
  | some r => match nodeOfNum r.addr with
    | some a => s.line.nodes[a]
    | none => none
  | none => none

/-- The node table entry of a crossing's head. -/
def headNode (s : State) (c : Crossing) : Option NodeEntry :=
  match crossingRec? s c with
  | some r => match nodeOfNum r.headAddr with
    | some a => s.line.nodes[a]
    | none => none
  | none => none

/-- The station is configured and its node is LOST. -/
def stationLost (s : State) (st : Station) : Bool :=
  match stationNode s st with
  | some e => e.lost
  | none => false

/-- The head of the crossing is LOST. -/
def headLost (s : State) (c : Crossing) : Bool :=
  match headNode s c with
  | some e => e.lost
  | none => false

/-! ### Views of the crossings (R57) -/

/-- The running states (R57). -/
def CrossingState.running : CrossingState → Bool
  | .dark | .maint | .flash => false
  | .startup | .vehGreen | .vehAmber | .redBeforeWalk | .walk | .clearance | .redAfterWalk => true

/-- The aspects a state commands (R59). -/
def CrossingState.aspects : CrossingState → Pair
  | .dark => ⟨.dark, .dark⟩
  | .maint => ⟨.flashAmber, .dark⟩
  | .flash => ⟨.flashAmber, .dark⟩
  | .startup => ⟨.red, .dontWalk⟩
  | .vehGreen => ⟨.green, .dontWalk⟩
  | .vehAmber => ⟨.amber, .dontWalk⟩
  | .redBeforeWalk => ⟨.red, .dontWalk⟩
  | .walk => ⟨.red, .walk⟩
  | .clearance => ⟨.red, .flashDontWalk⟩
  | .redAfterWalk => ⟨.red, .dontWalk⟩

/-- A RUN mode. -/
def Mode.isRun : Mode → Bool
  | .runFree | .runCoord => true
  | .dark | .maint => false

/-- Every crossing is in state DARK (R10). -/
def allDark (s : State) : Bool := allCrossings.all (fun c => decide (s.crossings[c].state = .dark))

/-- Change the record of one crossing. -/
def setCrossing (c : Crossing) (f : CrossingRecord → CrossingRecord) (s : State) : State :=
  { s with crossings := upd s.crossings c f }

/-- The part runs in neither reset nor LOADING, and not in LOCKOUT. -/
def isRunning (s : State) : Bool := decide (s.part = .running)

/-- Draw a free Boolean: the counter moves on (log 29). -/
def drawn (s : State) : State := { s with freeCount := s.freeCount + 1 }

/-- Apply an operation to each element of a list in turn. -/
def each {α : Type} (xs : List α) (f : α → State → State) (s : State) : State := xs.foldl (fun s x => f x s) s

/-- The elements of a list that may come next: those that no element before them must precede. `before` holds the elements passed. -/
def mayComeNext {α : Type} (keeps : α → α → Bool) : List α → List α → List α
  | _, [] => []
  | before, x :: xs =>
    if before.any (fun y => keeps y x) then mayComeNext keeps (x :: before) xs else x :: mayComeNext keeps (x :: before) xs

/-- A list in an order that is free but for the pairs of which `keeps` holds, the one before the other: those keep theirs. Each next
element is drawn from those that may come next. `n` bounds the draws, `k` is the counter of free values (log 2, 16). -/
def freeOrder {α : Type} [DecidableEq α] (keeps : α → α → Bool) : Nat → Nat → List α → List α
  | 0, _, xs => xs
  | n + 1, k, xs =>
    match mayComeNext keeps [] xs with
    | [] => xs
    | [x] => x :: freeOrder keeps n (k + 1) (xs.erase x)
    | x :: y :: ys =>
      let e := (x :: y :: ys).getD (Config.freeIndex k % (ys.length + 2)) x
      e :: freeOrder keeps n (k + 1) (xs.erase e)

end Sys2Proof.Machine
end

