-- ==== Sys2Proof/Machine/Operands.lean ====
section
/-! DEFINITION. The layouts of chapter 12: order blocks and their parameters, journal records, the site body, and the
frames of the street line. -/

namespace Sys2Proof.Machine

/-! ### Codes (R182) -/

def VehAspect.code : VehAspect → Nat
  | .dark => 0 | .green => 1 | .amber => 2 | .red => 3 | .flashAmber => 4
def VehAspect.ofCode : Nat → Option VehAspect
  | 0 => some .dark | 1 => some .green | 2 => some .amber | 3 => some .red | 4 => some .flashAmber | _ => none
def PedAspect.code : PedAspect → Nat
  | .dark => 0 | .dontWalk => 1 | .walk => 2 | .flashDontWalk => 3
def PedAspect.ofCode : Nat → Option PedAspect
  | 0 => some .dark | 1 => some .dontWalk | 2 => some .walk | 3 => some .flashDontWalk | _ => none
/-- Vehicle in bits 0-3, pedestrian in bits 4-7. -/
def Pair.code (p : Pair) : Nat := p.veh.code + 16 * p.ped.code
def Pair.ofCode (n : Nat) : Option Pair :=
  match VehAspect.ofCode (n % 16), PedAspect.ofCode (n / 16) with
  | some v, some p => some ⟨v, p⟩
  | _, _ => none
/-- 0xFF stands for UNKNOWN. -/
def pairCode : Option Pair → Nat
  | some p => p.code
  | none => 0xFF
def CrossingState.code : CrossingState → Nat
  | .dark => 0 | .maint => 1 | .flash => 2 | .startup => 3 | .vehGreen => 4 | .vehAmber => 5
  | .redBeforeWalk => 6 | .walk => 7 | .clearance => 8 | .redAfterWalk => 9
def Mode.code : Mode → Nat
  | .dark => 0 | .maint => 1 | .runFree => 2 | .runCoord => 3
def Mode.ofCode : Nat → Option Mode
  | 0 => some .dark | 1 => some .maint | 2 => some .runFree | 3 => some .runCoord | _ => none
/-- Order states: PENDING, TAKEN, DONE, REFUSED. -/
def pendingCode : Nat := 1
def takenCode : Nat := 2
def doneCode : Nat := 3
def refusedCode : Nat := 4
def OrderKind.ofCode : Nat → Option OrderKind
  | 1 => some .loadSite | 2 => some .storeSite | 3 => some .loadPlan | 4 => some .setMode | 5 => some .remoteCall
  | 6 => some .cancelCalls | 7 => some .announce | 8 => some .testStation | 9 => some .corridorHold | _ => none
def ResultCode.code : ResultCode → Nat
  | .ok => 0 | .badKind => 1 | .badParam => 2 | .bounds => 3 | .busy => 4 | .notReady => 5 | .superseded => 6
  | .writeProtected => 7 | .nodeLost => 8 | .memfault => 9 | .aborted => 10
def PressOutcome.code : PressOutcome → Nat
  | .entered => 0 | .merged => 1 | .upgraded => 2 | .absorbed => 3 | .ignored => 4 | .stuck => 5
def AnnOutcome.code : AnnOutcome → Nat
  | .completed => 0 | .cut => 1 | .busy => 2 | .fetchFault => 3 | .formatFault => 4 | .notRunning => 5
  | .stationLost => 6
def Cause.code : Cause → Nat
  | .timer => 0 | .call => 1 | .hold => 2 | .order => 3 | .fault => 4
def FaultKind.code : FaultKind → Nat
  | .conflict => 0 | .mismatch => 1 | .headLost => 2 | .flashUnproven => 3 | .lamp => 4
def HoldEvent.code : HoldEvent → Nat
  | .began => 0 | .ended => 1 | .spent => 2 | .released => 3
def HoldSource.code : HoldSource → Nat
  | .pin => 0 | .order => 1 | .both => 2
def DropCause.code : DropCause → Nat
  | .cancelled => 0 | .notRunning => 1 | .lockout => 2
def TestKind.code : TestKind → Nat
  | .tone => 0 | .loop => 1
def ProofState.code : ProofState → Nat
  | .waived => 0 | .checking => 1 | .steady => 2
/-- Cue in the status table: 0 none, 1-3 pattern, 4 NAME (R130, R182). -/
def Cue.code : Cue → Nat
  | .none => 0 | .awaiting => 0 | .pattern p => num p | .name => 4
/-- Source of a call in an ESCALATED record: the station, or 0 for REMOTE (R183). -/
def sourceCode : Source → Nat
  | .station st => num st
  | .remote => 0

/-! ### Journal records (R169, R183) -/

/-- Kind and words 2 and 3 of a record. -/
def RecordBody.encode : RecordBody → Nat × List Word
  | .press st o g => (1, [wordOf (num st) o.code g 0])
  | .callServed g a n k w => (2, [wordOf g (flagBit a) n k, w])
  | .state o n c => (3, [wordOf o.code n.code c.code 0])
  | .cue g => (4, [wordOf (match g with | some p => num p | none => 0) 0 0 0])
  | .announceEnd st o ord sl n => (5, [wordOf (num st) o.code (flagBit ord) sl, BitVec.ofNat 32 n])
  | .node a f g v m => (6, [BitVec.ofNat 32 (a + 256 * flagBit f + 65536 * g), wordOfHalves v m])
  | .fault k c p l => (7, [wordOf k.code c.code (pairCode p) l.toNat])
  | .hold e s => (8, [wordOf e.code s.code 0 0])
  | .plan i x => (9, [BitVec.ofNat 32 (i.toNat + 65536 * flagBit x)])
  | .callDropped n c => (10, [wordOf n c.code 0 0])
  | .escalated s => (11, [wordOf (sourceCode s) 0 0 0])
  | .gap n => (12, [BitVec.ofNat 32 n])

/-- Length of a record in words: 3 or 4 (R169). -/
def JournalRecord.length (r : JournalRecord) : Nat := 2 + r.body.encode.2.length

/-- The words of a record: header, reference count, fields. -/
def JournalRecord.words (r : JournalRecord) : List Word :=
  BitVec.ofNat 32 (r.body.encode.1 + 256 * r.length + 4096 * r.crossing) :: r.time :: r.body.encode.2

/-! ### Order blocks (R183) -/

/-- What word 1 of an order block says of its order. -/
def orderHead (block : Nat) (w : Word) : OrderHead :=
  { block := block, kind := byteAt w 1, len := byteAt w 2, notify := decide (bitsAt w 24 1 = 1) }

/-- Word 1 with a state, keeping the kind, the parameter length and the notify flag (R162, R165). -/
def OrderHead.word1 (h : OrderHead) (state : Nat) : Word := wordOf state h.kind h.len (flagBit h.notify)

/-- Word 2: result code in bits 0-3, detail above. -/
def Result.word2 (r : Result) : Word := BitVec.ofNat 32 (r.code.code + r.detail.toNat)

/-- The state a result is written with: DONE with OK, REFUSED with any other code (R163). -/
def Result.stateCode (r : Result) : Nat := if r.code = .ok then doneCode else refusedCode

/-- DONE OK with a detail, given from bit 4 upward. -/
def Result.done (detail : Nat) : Result := ⟨.ok, BitVec.ofNat 32 (16 * detail)⟩

/-- REFUSED with a code and a detail, given from bit 4 upward. -/
def Result.refused (code : ResultCode) (detail : Nat := 0) : Result := ⟨code, BitVec.ofNat 32 (16 * detail)⟩

/-- A phrase descriptor word: address in bits 0-23, length in bits 24-31 (R182). -/
def descOf (w : Word) : Desc := ⟨bitsAt w 0 24, byteAt w 3⟩
def Desc.word (d : Desc) : Word := BitVec.ofNat 32 (d.addr + 16777216 * d.len)

/-- The parameter length of a kind (R183). -/
def OrderKind.paramLength : OrderKind → Nat
  | .loadSite => 1 | .storeSite => 0 | .loadPlan => 10 | .setMode => 1 | .remoteCall => 1 | .cancelCalls => 1
  | .announce => 5 | .testStation => 1 | .corridorHold => 1

/-- The plan a LOAD_PLAN order's words give (R183). -/
def planOf (ps : List Word) : Plan :=
  let w3 := ps.getD 0 0
  let w4 := ps.getD 1 0
  { id := BitVec.ofNat 16 (bitsAt w3 0 16), cycle := bitsAt w3 16 8, closedMask := bitsAt w3 24 4,
    waitLimit := bitsAt w4 0 8, holdLimit := bitsAt w4 8 9,
    start := Vector.ofFn (fun (i : Fin 8) => byteAt (ps.getD (2 + i.val) 0) 0),
    width := Vector.ofFn (fun (i : Fin 8) => byteAt (ps.getD (2 + i.val) 0) 1) }

/-- The ranges of R87. -/
def Plan.inRange (p : Plan) : Bool :=
  decide (40 ≤ p.cycle ∧ p.cycle ≤ 240) && decide (p.closedMask ≤ 3)
    && decide (20 ≤ p.waitLimit ∧ p.waitLimit ≤ 180) && decide (30 ≤ p.holdLimit ∧ p.holdLimit ≤ 300)
    && allCrossings.all (fun i => decide (p.start[i] < p.cycle ∧ p.width[i] ≤ p.cycle))

/-- A crossing number that names a configured crossing (R1). -/
def configuredNum (s : State) (n : Nat) : Option Crossing :=
  match crossingOfNum n with
  | some c => if configured s c then some c else none
  | none => none

/-- A station number that names a configured station (R1). -/
def configuredStation (s : State) (n : Nat) : Option Station :=
  match stationOfNum n with
  | some st => if (stationRec? s st).isSome then some st else none
  | none => none

/-- A flag byte: 0 or 1 (R182). -/
def flagOf : Nat → Option Bool
  | 0 => some false
  | 1 => some true
  | _ => none

/-- The parameters of an order of a kind: none when one of them is out of range at taking (R163, and the owning
rules R10, R88, R72, R52, R53, R156, R29, R99). -/
def orderBody (s : State) (k : OrderKind) (ps : List Word) : Option OrderBody :=
  let w := ps.getD 0 0
  let b0 := byteAt w 0
  let b1 := byteAt w 1
  let b2 := byteAt w 2
  match k with
  | .loadSite =>
    if w.toNat % 4 = 0 && inWindow w.toNat (4 * Config.bodyWords) then some (.loadSite w.toNat) else none
  | .storeSite => some .storeSite
  | .loadPlan => if (planOf ps).inRange then some (.loadPlan (planOf ps)) else none
  | .setMode =>
    match configuredNum s b0, Mode.ofCode b1 with
    | some c, some m => some (.setMode c m)
    | _, _ => none
  | .remoteCall =>
    match configuredNum s b0, flagOf b2 with
    | some c, some a => if b1 = 2 ∨ b1 = 5 then some (.remoteCall c b1 a) else none
    | _, _ => none
  | .cancelCalls =>
    match configuredNum s b0, flagOf b1 with
    | some c, some all => some (.cancelCalls c all)
    | _, _ => none
  | .announce =>
    let n := byteAt w 3
    let descs := ((ps.drop 1).take n).map descOf
    if (b2 = 2 ∨ b2 = 3) ∧ 1 ≤ n ∧ n ≤ 4 then
      match b0 with
      | 0 => match configuredStation s b1 with
        | some st => some (.announce (.station st) b2 descs)
        | none => none
      | 1 => match configuredNum s b1 with
        | some c => some (.announce (.crossing c) b2 descs)
        | none => none
      | _ => none
    else none
  | .testStation =>
    match configuredStation s b0, flagOf b1 with
    | some st, some l => some (.testStation st (if l then .loop else .tone))
    | _, _ => none
  | .corridorHold =>
    match flagOf b0 with
    | some on => some (.corridorHold on)
    | none => none

/-- The checks at taking, in the order of R163: the order, or the code of its refusal. -/
def takingChecks (s : State) (h : OrderHead) (ps : List Word) : Except ResultCode OrderBody :=
  match OrderKind.ofCode h.kind with
  | none => .error .badKind
  | some k =>
    if h.len ≠ k.paramLength then .error .badParam
    else match orderBody s k ps with
      | none => .error .badParam
      | some b => if s.part = .lockout then .error .notReady else .ok b

/-- The kind of an order. -/
def OrderBody.kind : OrderBody → OrderKind
  | .loadSite _ => .loadSite
  | .storeSite => .storeSite
  | .loadPlan _ => .loadPlan
  | .setMode _ _ => .setMode
  | .remoteCall _ _ _ => .remoteCall
  | .cancelCalls _ _ => .cancelCalls
  | .announce _ _ _ => .announce
  | .testStation _ _ => .testStation
  | .corridorHold _ => .corridorHold

/-- The owner of an order (R163). -/
def OrderBody.owner : OrderBody → Owner
  | .loadSite _ => .siteTable
  | .storeSite => .configMemory
  | .loadPlan _ => .planUnit
  | .setMode c _ => .sequencer c
  | .remoteCall _ _ _ => .callTable
  | .cancelCalls _ _ => .callTable
  | .announce _ _ _ => .engine
  | .testStation _ _ => .lineController
  | .corridorHold _ => .holdLogic

/-! ### The site body (R184) -/

/-- A crossing slot as it stands in a body: present byte, the three counts, and the record with the entries up to
its counts. -/
structure RawCrossing where
  present : Nat
  nNeighbours : Nat
  nName : Nat
  nInfo : Nat
  record : CrossingRec
  deriving DecidableEq, Repr

/-- A station slot as it stands in a body. -/
structure RawStation where
  present : Nat
  record : StationRec
  deriving DecidableEq, Repr

/-- The bytes of words, in ascending address order. -/
def bytesOf (ws : List Word) : List Nat := ws.flatMap (fun w => [byteAt w 0, byteAt w 1, byteAt w 2, byteAt w 3])

/-- Words k to k + n - 1 of a list, 0 where it is shorter. -/
def slice (ws : List Word) (k n : Nat) : List Word := (List.range n).map (fun i => ws.getD (k + i) 0)

/-- Crossing slot c of a body. -/
def rawCrossing (body : List Word) (c : Crossing) : RawCrossing :=
  let w (k : Nat) : Word := body.getD (14 * c.val + k) 0
  let at14 (k n : Nat) : List Word := slice body (14 * c.val + k) n
  { present := byteAt (w 0) 0
    nNeighbours := byteAt (w 4) 0
    nName := byteAt (w 4) 1
    nInfo := byteAt (w 4) 2
    record :=
      { headAddr := byteAt (w 0) 1, width := bitsAt (w 0) 16 16
        walkTime := byteAt (w 1) 0, extension := byteAt (w 1) 1, minGreen := byteAt (w 1) 2, amber := byteAt (w 1) 3
        redBefore := byteAt (w 2) 0, redAfter := byteAt (w 2) 1
        normalSpeed := byteAt (w 2) 2, accessibleSpeed := byteAt (w 2) 3
        home := byteAt (w 3) 0, volumeCap := byteAt (w 3) 1, longPress := byteAt (w 3) 2
        autoStart := decide (bitsAt (w 3) 24 1 = 1)
        neighbours := (bytesOf (at14 5 1)).take (byteAt (w 4) 0)
        name := (bytesOf (at14 6 4)).take (byteAt (w 4) 1)
        info := ((at14 10 4).map descOf).take (byteAt (w 4) 2) } }

/-- Station slot st of a body. -/
def rawStation (body : List Word) (st : Station) : RawStation :=
  let w := body.getD (112 + st.val) 0
  { present := byteAt w 0, record := { addr := byteAt w 1, crossing := byteAt w 2, kerb := byteAt w 3 } }

/-- The site a valid body describes (R2: as it stands in the image). -/
def siteOf (body : List Word) : Site :=
  { crossings := Vector.ofFn (fun c => if (rawCrossing body c).present = 1 then some (rawCrossing body c).record else none)
    stations := Vector.ofFn (fun st => if (rawStation body st).present = 1 then some (rawStation body st).record else none) }

/-- The words of a crossing slot, absent slots all zero (R1, R184). -/
def crossingWords : Option CrossingRec → List Word
  | none => List.replicate 14 0
  | some r =>
    [wordOf 1 r.headAddr (r.width % 256) (r.width / 256),
     wordOf r.walkTime r.extension r.minGreen r.amber,
     wordOf r.redBefore r.redAfter r.normalSpeed r.accessibleSpeed,
     wordOf r.home r.volumeCap r.longPress (flagBit r.autoStart),
     wordOf r.neighbours.length r.name.length r.info.length 0,
     wordOf (r.neighbours.getD 0 0) (r.neighbours.getD 1 0) (r.neighbours.getD 2 0) (r.neighbours.getD 3 0)]
    ++ (List.range 4).map (fun k => wordOf (r.name.getD (4 * k) 0) (r.name.getD (4 * k + 1) 0)
        (r.name.getD (4 * k + 2) 0) (r.name.getD (4 * k + 3) 0))
    ++ (List.range 4).map (fun k => match r.info[k]? with | some d => d.word | none => 0)

/-- The word of a station slot. -/
def stationWord : Option StationRec → Word
  | none => 0
  | some r => wordOf 1 r.addr r.crossing r.kerb

/-- The body of a site (R184). -/
def bodyOf (site : Site) : List Word :=
  allCrossings.flatMap (fun c => crossingWords site.crossings[c]) ++ allStations.map (fun st => stationWord site.stations[st])

/-- The checksum: the sum, modulo 65536, of every byte of the body length word and of the body (R179). -/
def checksum (len : Word) (body : List Word) : Nat := (bytesOf (len :: body)).sum % 65536

/-- The configuration image of a site (R184). -/
def imageOf (site : Site) : List Word :=
  let len : Word := BitVec.ofNat 32 Config.bodyWords
  let body := bodyOf site
  Config.imageSignature :: len :: body ++ [BitVec.ofNat 32 (checksum len body)]

/-! ### Street-line frames (R15, R185) -/

/-- One bit of the CRC-8 with the generator x^8 + x^5 + x^4 + 1. -/
def crcShift (crc : Byte) : Byte := if crc.msb then (crc <<< 1) ^^^ 0x31#8 else crc <<< 1

/-- The CRC-8 of bytes: initial value 0, most significant bit first (R15). -/
def crc8 (bs : List Byte) : Byte :=
  bs.foldl (fun crc b => crcShift (crcShift (crcShift (crcShift (crcShift (crcShift (crcShift (crcShift (crc ^^^ b))))))))) 0#8

/-- Audio command codes (R182), and the pattern of WALK_PATTERN; the pattern field is 0 beside any other command (log 45). -/
def AudioCmd.code : AudioCmd → Nat × Nat
  | .sound .silent => (0, 0)
  | .sound .locator => (1, 0)
  | .sound .clearTick => (2, 0)
  | .sound (.walkPattern p) => (3, num p)
  | .sound .nameCue => (4, 0)
  | .clips => (5, 0)
  | .flush => (6, 0)
  | .ackTone => (7, 0)
  | .toneTest => (8, 0)

/-- Test pattern k (R185). -/
def testPattern (k : Nat) : List Byte :=
  [BitVec.ofNat 8 k, BitVec.ofNat 8 (255 - k)] ++ if k % 2 = 1 then [0x55#8, 0xAA#8] else [0xAA#8, 0x55#8]

/-- The bytes of a POLL between the address and the CRC-8 (R185). -/
def Poll.bytes : Poll → List Byte
  | .normal p n => [0#8, BitVec.ofNat 8 p.code, BitVec.ofNat 8 n]
  | .probe => [1#8]
  | .station q =>
    [2#8, BitVec.ofNat 8 (q.cmd.code.1 + 16 * q.cmd.code.2),
     BitVec.ofNat 8 (q.volume + 16 * flagBit q.lamp + 32 * flagBit q.tactile),
     BitVec.ofNat 8 q.clips.length, BitVec.ofNat 8 q.cueLen, BitVec.ofNat 8 q.cuePos,
     BitVec.ofNat 8 (q.clips.getD 0 0), BitVec.ofNat 8 (q.clips.getD 1 0)]
  | .test k => 3#8 :: testPattern k

/-- The frame of an exchange's POLL, as it goes out on LINE_TX. -/
def Exchange.frame (x : Exchange) : List Byte :=
  let bs := BitVec.ofNat 8 x.addr.val :: x.poll.bytes
  bs ++ [crc8 bs]

/-- The station reply's test result (R27). -/
inductive TestResult where
  | none | pending
  | level (n : Nat)
  deriving DecidableEq, Repr

/-- The fields of a station reply (R27). -/
structure StationFields where
  down : Bool
  speaker : Bool
  pressCounter : Nat
  hold : Nat
  ambient : Nat
  free : Nat
  played : Nat
  test : TestResult
  deriving DecidableEq, Repr

/-- A good reply (R16). -/
inductive Reply where
  | head (proven : Pair) (lamps : BitVec 4)
  | station (f : StationFields)
  | echo (pattern : List Byte)
  deriving DecidableEq, Repr

/-- Fields of a station reply's five bytes: none when one is out of range (R27, R185). -/
def stationFields (b1 b2 b3 b4 b5 : Byte) : Option StationFields :=
  let free := b3.toNat / 16 % 8
  let kind := b5.toNat % 4
  let test : Option TestResult :=
    match kind with
    | 0 => some .none
    | 1 => some .pending
    | 2 => some (.level (b5.toNat / 16))
    | _ => none
  match test with
  | some t =>
    if free ≤ 4 then
      some { down := decide (b1.toNat % 2 = 1), speaker := decide (b1.toNat / 2 % 2 = 1),
             pressCounter := b1.toNat / 16, hold := b2.toNat, ambient := b3.toNat % 16, free := free,
             played := b4.toNat, test := t }
    else none
  | none => none

/-- Class a reply by the poll it answers (R16): its fields when it is good, none when the exchange is a violation.
Its length is the length of the reply to that poll kind, its address the polled one, its CRC-8 right, and every
field in range. -/
def classify (x : Exchange) (bytes : List Byte) : Option Reply :=
  let a := BitVec.ofNat 8 x.addr.val
  match x.poll, bytes with
  | .normal _ _, [b0, b1, b2, c] =>
    if b0 = a ∧ c = crc8 [b0, b1, b2] then (Pair.ofCode b1.toNat).map (fun p => .head p (b2.truncate 4)) else none
  | .probe, [b0, b1, b2, c] =>
    if b0 = a ∧ c = crc8 [b0, b1, b2] then (Pair.ofCode b1.toNat).map (fun p => .head p (b2.truncate 4)) else none
  | .station _, [b0, b1, b2, b3, b4, b5, c] =>
    if b0 = a ∧ c = crc8 [b0, b1, b2, b3, b4, b5] then (stationFields b1 b2 b3 b4 b5).map .station else none
  | .test _, [b0, b1, b2, b3, b4, c] =>
    if b0 = a ∧ c = crc8 [b0, b1, b2, b3, b4] then some (.echo [b1, b2, b3, b4]) else none
  | _, _ => none

end Sys2Proof.Machine
end

