-- ==== Sys2Proof/Machine/SiteTable.lean ====
section
/-! DEFINITION. The Site Table's own tables (R1-R9): ranges, validation, the node map, the hearing table, the name phrase
store and the usable marks. -/

namespace Sys2Proof.Machine

/-- lo to hi, inclusive. -/
def between (lo hi n : Nat) : Bool := decide (lo ≤ n ∧ n ≤ hi)

/-- A clip number (R2). -/
def validClip (n : Nat) : Bool := between 1 250 n

/-- A crossing slot passes check 1 (R2, R6): only a present one has its fields checked. -/
def RawCrossing.inRange (x : RawCrossing) : Bool :=
  let r := x.record
  x.present == 0 ||
  (x.present == 1 && between 1 63 r.headAddr && between 40 400 r.width && between 40 200 r.walkTime
    && between 0 150 r.extension && between 6 120 r.minGreen && between 30 60 r.amber
    && between 10 50 r.redBefore && between 10 50 r.redAfter && between 10 15 r.normalSpeed
    && between 6 10 r.accessibleSpeed && between 1 3 r.home && between 0 4 x.nNeighbours
    && r.neighbours.all (between 1 8) && between 0 15 r.volumeCap && between 10 25 r.longPress
    && between 1 16 x.nName && r.name.all validClip && between 0 4 x.nInfo)

/-- A station slot passes check 1 (R3, R6). -/
def RawStation.inRange (x : RawStation) : Bool :=
  x.present == 0 ||
  (x.present == 1 && between 1 63 x.record.addr && between 1 8 x.record.crossing && between 0 1 x.record.kerb)

/-- The node addresses of a site: heads in ascending crossing number, then stations. -/
def Site.addresses (site : Site) : List Nat :=
  (allCrossings.filterMap (fun c => site.crossings[c].map CrossingRec.headAddr))
    ++ allStations.filterMap (fun st => site.stations[st].map StationRec.addr)

/-- A crossing lists another, both configured (R9). -/
def Site.lists (site : Site) (a b : Crossing) : Bool :=
  match site.crossings[a], site.crossings[b] with
  | some r, some _ => r.neighbours.contains (num b)
  | _, _ => false

/-- The hearing neighbours of a crossing: the symmetric closure (R9). -/
def Site.hears (site : Site) (a : Crossing) : List Crossing :=
  allCrossings.filter (fun b => decide (a ≠ b) && (site.lists a b || site.lists b a))

/-- A descriptor lies inside the phrase area, and is not vacant (R5). -/
def descUsable (area : Option (Nat × Nat)) (d : Desc) : Bool :=
  match area with
  | some (base, limit) => decide (d.len ≠ 0 ∧ base ≤ d.addr ∧ d.addr + d.len ≤ limit)
  | none => false

/-- How many configured stations name a crossing. -/
def Site.stationCount (site : Site) (c : Crossing) : Nat :=
  allStations.countP (fun st => decide (site.stations[st].map StationRec.crossing = some (num c)))

/-- The neighbour list of a configured crossing fails check 5: it names a crossing not configured, or itself. -/
def Site.neighbourFails (site : Site) (c : Crossing) : Bool :=
  match site.crossings[c] with
  | some r => r.neighbours.any (fun n => n == num c ||
      (match crossingOfNum n with | some m => site.crossings[m].isNone | none => true))
  | none => false

/-- An info descriptor of a configured crossing fails check 7. -/
def Site.infoFails (site : Site) (area : Option (Nat × Nat)) (c : Crossing) : Bool :=
  match site.crossings[c] with
  | some r => r.info.any (fun d => decide (d.len ≠ 0) && !descUsable area d)
  | none => false

/-- A station names a crossing that is not configured. -/
def Site.stationFails (site : Site) (st : Station) : Bool :=
  match site.stations[st] with
  | some r => (match crossingOfNum r.crossing with | some c => site.crossings[c].isNone | none => true)
  | none => false

/-- The seven checks of R6 on a body, in order: the kind and item of the first that fails. Check 7 is made on LOAD_SITE only. For check 2
the item is the address of the first record whose address stands twice (DEDUCED, log 15). -/
def validate (body : List Word) (area : Option (Nat × Nat)) (onLoad : Bool) : Option (Nat × Nat) :=
  let site := siteOf body
  match allCrossings.find? (fun c => !(rawCrossing body c).inRange) with
  | some c => some (1, num c)
  | none =>
  match allStations.find? (fun st => !(rawStation body st).inRange) with
  | some st => some (1, 32 + num st)
  | none =>
  match site.addresses.find? (fun a => decide (1 < site.addresses.count a)) with
  | some a => some (2, a)
  | none =>
  match allStations.find? site.stationFails with
  | some st => some (3, num st)
  | none =>
  match allCrossings.find? (fun c => decide (8 < site.stationCount c)) with
  | some c => some (4, num c)
  | none =>
  match allCrossings.find? site.neighbourFails with
  | some c => some (5, num c)
  | none =>
  match allCrossings.find? (fun c => decide (4 < (site.hears c).length)) with
  | some c => some (6, num c)
  | none =>
  match allCrossings.find? (fun c => onLoad && site.infoFails area c) with
  | some c => some (7, num c)
  | none => none

/-- The kind and owner of an address (R8). -/
def Site.kindOf (site : Site) (a : Nat) : NodeKind :=
  match allCrossings.find? (fun c => decide (site.crossings[c].map CrossingRec.headAddr = some a)) with
  | some c => .head c
  | none =>
    match allStations.find? (fun st => decide (site.stations[st].map StationRec.addr = some a)) with
    | some st => .station st
    | none => .none

/-- The node map of a site (R8). -/
def Site.nodeMap (site : Site) : Vector NodeKind 64 := Vector.ofFn (fun a => site.kindOf a.val)

/-- The hearing table of a site (R9). -/
def Site.hearingTable (site : Site) : Vector (List Crossing) 8 := Vector.ofFn site.hears

/-- The name phrase store of a site (R4). -/
def Site.nameStore (site : Site) : Vector (List Nat) 8 :=
  Vector.ofFn (fun c => (site.crossings[c].map CrossingRec.name).getD [])

/-- The usable marks of a site against a phrase area (R5). -/
def usableMarks (site : Option Site) (area : Option (Nat × Nat)) : Vector (List Bool) 8 :=
  Vector.ofFn (fun (c : Crossing) => match site with
    | some site => match site.crossings[c] with
      | some r => r.info.map (descUsable area)
      | none => []
    | none => [])

/-- The Site Table with a site in force and every derived table built anew (R13). -/
def SiteTable.withSite (t : SiteTable) (site : Site) : SiteTable :=
  { t with inForce := some site, nodeMap := site.nodeMap, hearing := site.hearingTable, names := site.nameStore,
           usable := usableMarks (some site) t.phraseArea, load := none }

/-- An anchor read hands a phrase area on: every mark is computed again (R5, R159). -/
def takePhraseArea (base limit : Nat) (s : State) : State :=
  { s with site := { s.site with phraseArea := some (base, limit),
                                 usable := usableMarks s.site.inForce (some (base, limit)) } }

/-- The usable info descriptors of a crossing, in list order (R5). -/
def usableInfo (s : State) (c : Crossing) : List Desc :=
  (((crossingRec s c).info.zip s.site.usable[c]).filter (fun p => p.2)).map Prod.fst

/-- Configured crossings of a site. -/
def Site.crossingTotal (site : Site) : Nat := allCrossings.countP (fun c => site.crossings[c].isSome)
/-- Configured stations of a site. -/
def Site.stationTotal (site : Site) : Nat := allStations.countP (fun st => site.stations[st].isSome)

/-- The entry of a newly configured node (R8, R17): ACTIVE, every count 0. -/
def NodeEntry.fresh : NodeEntry :=
  { lost := false, failRun := 0, goodRun := 0, good := 0, violation := 0, miss := 0, probeCount := 0,
    ambient := 0, speaker := false }

/-- The node table of a node map (R8). -/
def nodeTableOf (m : Vector NodeKind 64) : Vector (Option NodeEntry) 64 :=
  Vector.ofFn (fun (a : NodeAddr) => match m[a] with
    | .none => none
    | .head _ => some NodeEntry.fresh
    | .station _ => some NodeEntry.fresh)

end Sys2Proof.Machine
end

