-- ==== Sys2Proof/Machine/Flags.lean ====
section
/-! DEFINITION. The attention flags, the ATTN output and the host's view of the registers. -/

namespace Sys2Proof.Machine

/-- The attention flags, in the order of ATTENTION (R178, R183). -/
inductive Attention where
  | orderNotify | journalClosed | fault | linkFault | hold
  deriving DecidableEq, Repr

/-- The bit of a flag in ATTENTION, and of its enable in CONTROL from bit 8 (R183). -/
def Attention.bit : Attention → Nat
  | .orderNotify => 0
  | .journalClosed => 1
  | .fault => 2
  | .linkFault => 3
  | .hold => 4

/-- Set an attention flag, whether or not its enable is set (R178). -/
def raise (a : Attention) (s : State) : State :=
  { s with regs := { s.regs with attention := s.regs.attention ||| (1#5 <<< a.bit) } }

/-- Clear the flags written with 1 (R178). -/
def clearAttention (w : Word) (s : State) : State :=
  { s with regs := { s.regs with attention := s.regs.attention &&& ~~~ (w.truncate 5) } }

/-- Whether a flag is set. -/
def flagSet (a : Attention) (s : State) : Bool := s.regs.attention.getLsbD a.bit

/-- The ATTN output: a flag is set whose enable is set (R178). -/
def attn (s : State) : Bool := decide (s.regs.attention &&& s.regs.enables ≠ 0#5)

/-! ### Codes of the states (R182) -/

def PartState.code : PartState → Nat
  | .loading => 0 | .running => 1 | .lockout => 2
def LinkState.code : LinkState → Nat
  | .stopped => 0 | .following => 1 | .halted => 2
def JournalState.code : JournalState → Nat
  | .idle => 0 | .writing => 1 | .stalled => 2 | .faulted => 3
def Presence.code : Presence → Nat
  | .absent => 0 | .valid => 1 | .invalid => 2
/-- The order of R96 (R182: enumerations not in its table are coded from 0). -/
def HoldState.code : HoldState → Nat
  | .idle => 0 | .active => 1 | .spent => 2

/-- What a read of a register gives (R177, R183); a read changes nothing. -/
def readRegister (s : State) : Reg → Word
  | .anchor => s.regs.anchor
  | .control => BitVec.ofNat 32 (flagBit s.regs.start + 256 * s.regs.enables.toNat)
  | .nudge => 0
  | .partState =>
    wordOf s.part.code s.orders.link.code s.journal.state.code
      (s.config.presence.code + 16 * flagBit s.site.inForce.isSome)
  | .attention => s.regs.attention.setWidth 32
  | .clock => s.now

end Sys2Proof.Machine
end

