-- ==== Sys2Proof/Machine/Journal.lean ====
section
/-! DEFINITION. The Journal Writer (R169-R174): records, the journal FIFO, buffers and the descriptor list. -/

namespace Sys2Proof.Machine

/-- The lost count saturates at 2^32 - 1 (R170). -/
def lostMax : Nat := 4294967295

/-- What a record counts for when it is lost: a GAP counts what it carries, any other 1 (R174). -/
def JournalRecord.weight (r : JournalRecord) : Nat :=
  match r.body with
  | .gap n => n
  | .press .. | .callServed .. | .state .. | .cue .. | .announceEnd .. | .node .. | .fault .. | .hold .. | .plan ..
  | .callDropped .. | .escalated .. => 1

/-- A record enters the FIFO, with a GAP ahead of it after a loss, or is discarded into the lost count (R170). -/
def JournalWriter.enter (j : JournalWriter) (r : JournalRecord) : JournalWriter :=
  if j.lost = 0 then
    if j.fifo.length < Config.fifoDepth then { j with fifo := j.fifo ++ [r] }
    else { j with lost := 1 }
  else if j.fifo.length + 2 ≤ Config.fifoDepth then
    { j with fifo := j.fifo ++ [⟨0, r.time, .gap j.lost⟩, r], lost := 0 }
  else { j with lost := min (j.lost + 1) lostMax }

/-- While WRITING with no access under way, start the next access to the current buffer: a close when the flush timer
has expired or the head record does not fit, else the write of the head record (R172). -/
def JournalWriter.pump (j : JournalWriter) (now : Time) : JournalWriter :=
  match j.state, j.access, j.current with
  | .writing, .idle, some b =>
    if b.flushExpired then { j with access := .close now }
    else match j.fifo with
      | [] => j
      | r :: _ =>
        if b.used + r.length ≤ b.capacity then { j with access := .record } else { j with access := .close now }
  | _, _, _ => j

/-- The Journal Writer takes a record (R169): it enters or is counted lost, and the Writer starts its next access. -/
def JournalWriter.take (now : Time) (j : JournalWriter) (r : JournalRecord) : JournalWriter := (j.enter r).pump now

/-- The blocks that send records (R169). The Call Table's records of two crossings, which no rule orders, count as of two blocks
(log 16). -/
inductive Producer where
  | pressFilter | callTable (crossing : Nat) | sequencer (crossing : Nat) | planUnit | holdLogic | proofMonitor | cueAllocator | engine
  | lineController | journalWriter
  deriving DecidableEq, Repr

/-- The block that sends a record, by the rules of its kind (R21, R37, R38, R47, R54, R60, R68, R91, R93,
R97, R112, R131, R151, R170). -/
def JournalRecord.producer (r : JournalRecord) : Producer :=
  match r.body with
  | .press _ .stuck _ => .pressFilter
  | .press .. | .callDropped .. | .escalated .. => .callTable r.crossing
  | .callServed .. | .state .. => .sequencer r.crossing
  | .cue .. => .cueAllocator
  | .announceEnd .. => .engine
  | .node .. => .lineController
  | .fault .. => .proofMonitor
  | .hold .. => .holdLogic
  | .plan .. => .planUnit
  | .gap .. => .journalWriter

/-- The first record, produced before the second in one event, enters the journal before it (R169). Records of one block keep their
order. Of different blocks (log 16): a FAULT record comes before all that its fault brings about (R109 to R111, R113, R115, R118); a NODE
record of a station found before what the delivery then brings about (R27); an ESCALATED record before the change of its crossing's
state (R47, R104 step 1 before step 3); the entry to a stop target in place of a return under a hold before the CALL_DROPPED record
(R104); a press event or a long event before STUCK (R35, step 1 and 2 before step 4); and a commit before the absorption of a press
that finds it taken (R42). Any other two, produced together, enter in either order. -/
def JournalRecord.precedes (a b : JournalRecord) : Bool :=
  decide (a.producer = b.producer) ||
  match a.body, b.body with
  | .fault .., _ => true
  | .node _ found _ _ _, _ => found
  | .escalated _, .state .. => decide (a.crossing = b.crossing)
  | .state .redBeforeWalk _ .order, .callDropped .. => decide (a.crossing = b.crossing)
  | .press _ out _, .press _ .stuck _ => decide (out ≠ .stuck)
  | .state .., .press _ .absorbed _ => decide (a.crossing = b.crossing)
  | _, _ => false

/-- A block produces a record in the event under way (R169). `crossing` is the crossing number of its header, 0 for none. -/
def produce (crossing : Nat) (body : RecordBody) (s : State) : State :=
  { s with made := s.made ++ [⟨crossing, s.now, body⟩] }

/-- The records of an event enter the journal, one after another in an order that is free where no rule gives one (R169; log 16). What the field held before the event stands there again. -/
def recordsEnter (before : List JournalRecord) (s : State) : State :=
  { s with
    journal := (freeOrder JournalRecord.precedes s.made.length s.freeCount s.made).foldl (JournalWriter.take s.now) s.journal
    freeCount := s.freeCount + (s.made.length - 1)
    made := before }

/-- An event of the part: the records it makes enter the journal. A command has no effect while the part is held in reset (R179: every
activity stops). -/
def live (s : State) (f : State → State) : Host.Outcome State Fault Refusal :=
  .next (if s.held then s else recordsEnter s.made (f { s with made := [] }))

/-- The journal becomes FAULTED and LINK_FAULT is set (R173). -/
def journalFault (s : State) : State :=
  raise .linkFault { s with journal := { s.journal with state := .faulted, access := .idle, nextReread := none, rereadDue := false } }

/-- A list address is a multiple of 16 and its 64 descriptors lie inside the window (R171). -/
def listAddrOk (a : Nat) : Bool := decide (a % 16 = 0) && inWindow a (16 * Config.listDescriptors)

/-- The Writer opens the descriptor at the cursor: its read starts (R171). -/
def journalOpen (s : State) : State :=
  match s.journal.listAddr with
  | some a =>
    if listAddrOk a then { s with journal := { s.journal with access := .descriptor } } else journalFault s
  | none => s

/-- The link becomes FOLLOWING (R173): the current buffer is kept WRITING, or the descriptor at the cursor is opened. Where an access
begun before the link left FOLLOWING is still under way, the journal goes on from it in the state it has, and does not become IDLE at its
end (DESIGN CHOICE, log 48). -/
def journalJoin (s : State) : State :=
  match s.journal.state, s.journal.access with
  | .idle, .idle =>
    match s.journal.current with
    | some _ => { s with journal := ({ s.journal with state := .writing }).pump s.now }
    | none => journalOpen s
  | _, _ => s

/-- The link leaves FOLLOWING (R173): IDLE at once, or when the access under way is finished. A FAULTED journal stays FAULTED until
LINK_RESTART, at START cleared too (R173, R174; log 36). -/
def journalLeave (s : State) : State :=
  match s.journal.state, s.journal.access with
  | .writing, .idle => { s with journal := { s.journal with state := .idle } }
  | .stalled, .idle => { s with journal := { s.journal with state := .idle, nextReread := none, rereadDue := false } }
  | _, _ => s

/-- An access of the Writer has ended well: with the link still FOLLOWING it goes on, else it becomes IDLE (R173). -/
def journalGoOn (s : State) : State :=
  if s.orders.link = .following then
    match s.journal.state, s.journal.current with
    | .writing, some _ => { s with journal := s.journal.pump s.now }
    | .writing, none => journalOpen s
    | _, _ => s
  else { s with journal := { s.journal with state := .idle, nextReread := none, rereadDue := false } }

/-- An anchor read hands the descriptor list address on: taken from the first successful read after a reset and from
that of a LINK_RESTART; a new address sets the cursor to 0 and is checked (R171). -/
def journalTakeList (a : Nat) (restart : Bool) (s : State) : State :=
  if restart ∨ s.journal.listAddr = none then
    let s := { s with journal := { s.journal with listAddr := some a, cursor := 0 } }
    if listAddrOk a then s else journalFault s
  else s

/-- LINK_RESTART at the Journal Writer (R174): the FIFO and the records of a buffer not closed go into the lost count,
the buffer is given up, the cursor returns to 0 and the journal is IDLE. Of a record write or a close under way no word is written
(DESIGN CHOICE, log 47). -/
def journalRestart (s : State) : State :=
  let j := s.journal
  let held := match j.current with
    | some b => b.weight
    | none => 0
  let lost := min (j.lost + (j.fifo.map JournalRecord.weight).sum + held) lostMax
  { s with journal := { j with fifo := [], lost := lost, cursor := 0, current := none, state := .idle,
                               access := .idle, nextReread := none, rereadDue := false } }

/-- The address of the descriptor at the cursor. -/
def descriptorAddr (s : State) : Nat := s.journal.listAddr.getD 0 + 16 * s.journal.cursor

/-- A stalled journal reads its descriptor again; with that read under way it does so when the read ends, once for all that fell due
meanwhile (R171; log 13). -/
def journalReread (s : State) : State :=
  if s.journal.state = .stalled then
    if s.journal.access = .idle then { s with journal := { s.journal with access := .descriptor } }
    else { s with journal := { s.journal with rereadDue := true } }
  else s

/-- A descriptor read of a stalled journal has ended, STALLED again: a re-read that fell due meanwhile begins (R171). -/
def rereadHeld (s : State) : State :=
  if s.journal.state = .stalled ∧ s.journal.rereadDue = true then
    journalReread { s with journal := { s.journal with rereadDue := false } }
  else s

/-- A descriptor's first two words are read (R171): STALLED on FILLED, the current buffer when the checks pass,
else FAULTED, the link still FOLLOWING or not (log 37). -/
def descriptorRead (w0 w1 : Word) (s : State) : State :=
  let s := { s with journal := { s.journal with access := .idle } }
  let cap := bitsAt w1 0 16
  if bitsAt w1 16 1 = 1 then
    let reread := if s.journal.state = .stalled then s.journal.nextReread else some (after s.now Config.rereadPeriod)
    rereadHeld (journalGoOn { s with journal := { s.journal with state := .stalled, nextReread := reread } })
  else if w0.toNat % 4 = 0 && decide (16 ≤ cap) && inWindow w0.toNat (4 * cap) then
    journalGoOn { s with journal := { s.journal with
      state := .writing, nextReread := none, rereadDue := false,
      current := some { addr := w0.toNat, capacity := cap, last := decide (bitsAt w1 17 1 = 1), used := 0,
                        weight := 0, flushEnd := none, flushExpired := false } } }
  else journalFault s

/-- DESCRIPTOR_READ_DONE (R171, R173). -/
def execDescriptorReadDone (ans : WordsEnd) (s : State) : Host.Outcome State Fault Refusal :=
  live s fun s =>
    if s.journal.access = .descriptor then
      match ans with
      | .words ws => descriptorRead (ws.getD 0 0) (ws.getD 1 0) s
      | .busError => journalFault s
    else s

/-- The 1 s re-read of a stalled journal is due (R171). -/
def stallRereadIsDue (s : State) : Bool :=
  decide (s.journal.state = .stalled) && due s.now s.journal.nextReread

/-- STALL_REREAD_DUE (R171): every 1 s while STALLED. -/
def execStallRereadDue (s : State) : Host.Outcome State Fault Refusal :=
  live s fun s =>
    if stallRereadIsDue s then
      journalReread { s with journal := { s.journal with
        nextReread := s.journal.nextReread.map (fun t => after t Config.rereadPeriod) } }
    else s

/-- The head record is in the buffer: it leaves the FIFO, and the flush timer starts with the first record of an
empty buffer (R170, R172). -/
def recordWritten (b : Buffer) (r : JournalRecord) (rest : List JournalRecord) (s : State) : State :=
  let flushEnd := if b.used = 0 then some (after s.now Config.flushTime) else b.flushEnd
  journalGoOn { s with
    mem := Memory.writeWords s.mem (b.addr + 4 * b.used) r.words
    journal := { s.journal with
      fifo := rest, access := .idle,
      current := some { b with used := b.used + r.length, weight := b.weight + r.weight, flushEnd := flushEnd } } }

/-- RECORD_WRITE_DONE (R172, R173). After a bus error the record stays at the head of the FIFO; the words before the
failed one have been written. -/
def execRecordWriteDone (ans : RunEnd) (s : State) : Host.Outcome State Fault Refusal :=
  live s fun s =>
    match s.journal.access, s.journal.current, s.journal.fifo with
    | .record, some b, r :: rest =>
      match ans with
      | .ok => recordWritten b r rest s
      | .busError k =>
        journalFault { s with mem := Memory.writeWords s.mem (b.addr + 4 * b.used) (r.words.take k) }
    | _, _, _ => s

/-- The flush timer of the current buffer has reached its end (R172). -/
def flushTimerIsDue (s : State) : Bool :=
  match s.journal.current with
  | some b => due s.now b.flushEnd && !b.flushExpired
  | none => false

/-- FLUSH_TIMER_EXPIRY (R172): the buffer closes now if the journal is WRITING with no access under way, else when it
next can; a close already under way is not repeated. -/
def execFlushTimerExpiry (s : State) : Host.Outcome State Fault Refusal :=
  live s fun s =>
    if flushTimerIsDue s then
      { s with journal := ({ s.journal with
          current := s.journal.current.map (fun (b : Buffer) => { b with flushExpired := true }) }).pump s.now }
    else s

/-- The close writes, in the order of R172: used words (word 2), close time (word 3), flags (word 1: the capacity as read, FILLED
set, LAST as read). After k of them. -/
def closeWrites (d : Nat) (b : Buffer) (t : Time) (k : Nat) (m : List Host.Cell) : List Host.Cell :=
  let m1 := if 1 ≤ k then Memory.writeWord m (d + 8) (BitVec.ofNat 32 b.used) else m
  let m2 := if 2 ≤ k then Memory.writeWord m1 (d + 12) t else m1
  if 3 ≤ k then Memory.writeWord m2 (d + 4) (BitVec.ofNat 32 (b.capacity + 65536 + 131072 * flagBit b.last)) else m2

/-- The buffer is the host's: JOURNAL_CLOSED is set, the cursor advances, and the next descriptor is opened at once (R172). -/
def bufferClosed (b : Buffer) (s : State) : State :=
  journalGoOn (raise .journalClosed { s with journal := { s.journal with
    access := .idle, current := none,
    cursor := if b.last ∨ Config.listDescriptors ≤ s.journal.cursor + 1 then 0 else s.journal.cursor + 1 } })

/-- BUFFER_CLOSE_WRITE_DONE (R172, R173). A close that fails has not written FILLED. -/
def execBufferCloseWriteDone (ans : RunEnd) (s : State) : Host.Outcome State Fault Refusal :=
  live s fun s =>
    match s.journal.access, s.journal.current with
    | .close t, some b =>
      match ans with
      | .ok => bufferClosed b { s with mem := closeWrites (descriptorAddr s) b t 3 s.mem }
      | .busError k => journalFault { s with mem := closeWrites (descriptorAddr s) b t (min k 2) s.mem }
    | _, _ => s

end Sys2Proof.Machine
end

