-- ==== Sys2Proof/Machine/Status.lean ====
section
/-! DEFINITION. The Status Writer (R175, R176) and the words of the status table (R183). -/

namespace Sys2Proof.Machine

/-- Whole tenths of a second from now to a time, rounded up; 0 once it is reached (R58). -/
def tenthsTo (now t : Time) : Nat := if reached now t then 0 else ((t - now).toNat + 99) / 100

/-- The remaining time of a crossing in tenths of a second (R58). -/
def remainingTime (s : State) (c : Crossing) : Nat :=
  let r := s.crossings[c]
  match r.state with
  | .vehGreen => match r.minGreen with
    | some (t, elapsed) => if elapsed then 0 else tenthsTo s.now t
    | none => 0
  | .dark | .maint | .flash => 0
  | .startup | .vehAmber | .redBeforeWalk | .walk | .clearance | .redAfterWalk =>
    match r.timer with
    | some t => tenthsTo s.now t
    | none => 0

/-- Node state in the status table (R182). -/
def nodeStateCode : Option NodeEntry → Nat
  | none => 0
  | some e => if e.lost then 2 else 1

/-- Word k of the record of a configured crossing (R175, R183). -/
def crossingStatus (s : State) (c : Crossing) (k : Nat) : Word :=
  let r := s.crossings[c]
  let e := (headNode s c).getD default
  match k with
  | 0 => wordOf r.mode.code r.state.code r.mask s.cues.cue[c].code
  | 1 => BitVec.ofNat 32 (remainingTime s c + 65536 * s.calls[c].length
      + 16777216 * flagBit s.plan.windowOpen[c] + 33554432 * flagBit r.recalled)
  | 2 => match s.proofs[c] with
    | some p => wordOf (nodeStateCode (headNode s c)) p.state.code (pairCode p.proven) p.lamps.toNat
    | none => wordOf (nodeStateCode (headNode s c)) 0 0 0
  | 3 => wordOfHalves e.good e.violation
  | _ => wordOfHalves e.miss 0

/-- Context state of a station: IDLE, ACTIVE or SUSPENDED, in the order of R140. -/
def contextCode : Option Context → Nat
  | none => 0
  | some x => if x.suspended then 2 else 1

/-- Word k of the record of a configured station (R175, R183). -/
def stationStatus (s : State) (st : Station) (r : StationRec) (k : Nat) : Word :=
  let e := (stationNode s st).getD default
  match k with
  | 0 => wordOf (nodeStateCode (stationNode s st)) r.kerb e.ambient
      (flagBit e.speaker + 2 * flagBit s.press[st].stuck + 4 * flagBit s.lamps[st]
        + 16 * contextCode s.ann.contexts[st])
  | 1 => wordOfHalves e.good e.violation
  | _ => wordOfHalves e.miss 0

/-- The byte of a crossing in the hearing table: bit m - 1 set when crossing m is its neighbour (R183). -/
def hearingByte (ns : List Crossing) : Nat := (allCrossings.map (fun m => if m ∈ ns then 2 ^ m.val else 0)).sum

/-- Word p of the status table, each value taken from its owner (R175, R183). A crossing or station that is not configured has every
field 0. With no plan in force the plan id field of word 4 is 0 beside the clear flag (log 40). -/
def statusWord (s : State) (p : Nat) : Word :=
  if p = 0 then s.status.generation
  else if p = 1 then s.now
  else if p = 2 then wordOf s.part.code s.orders.link.code s.journal.state.code s.hold.state.code
  else if p = 3 then BitVec.ofNat 32 s.plan.position
  else if p = 4 then
    match s.plan.inForce with
    | some plan => BitVec.ofNat 32 (plan.id.toNat + 65536)
    | none => 0
  else if p < 45 then
    match crossingOfNum ((p - 5) / 5 + 1) with
    | some c => if configured s c then crossingStatus s c ((p - 5) % 5) else 0
    | none => 0
  else if p < 141 then
    match stationOfNum ((p - 45) / 3 + 1) with
    | some st => match stationRec? s st with
      | some r => stationStatus s st r ((p - 45) % 3)
      | none => 0
    | none => 0
  else if p = 141 then
    wordOf (hearingByte s.site.hearing[0]) (hearingByte s.site.hearing[1]) (hearingByte s.site.hearing[2])
      (hearingByte s.site.hearing[3])
  else
    wordOf (hearingByte s.site.hearing[4]) (hearingByte s.site.hearing[5]) (hearingByte s.site.hearing[6])
      (hearingByte s.site.hearing[7])

/-- A write of the whole table starts, unless writing is stopped, has no address, or one is in progress: the
generation rises by 1 (R175). -/
def statusBegin (s : State) : State :=
  match s.status.addr, s.status.write with
  | some a, none =>
    if s.status.stopped then s
    else { s with status := { s.status with generation := s.status.generation + 1, write := some (a, 0) } }
  | _, _ => s

/-- The link becomes FOLLOWING: a write is due at once and the period runs from then (R175). -/
def statusJoin (s : State) : State :=
  statusBegin { s with status := { s.status with nextDue := some (after s.now Config.statusPeriod) } }

/-- A stop of status writing, with LINK_FAULT (R176). -/
def statusStop (s : State) : State := raise .linkFault { s with status := { s.status with stopped := true } }

/-- The address is a multiple of 4 and the table lies wholly inside the window (R176). -/
def statusAddrOk (a : Nat) : Bool := decide (a % 4 = 0) && inWindow a (4 * Config.statusWords)

/-- An anchor read hands the status table address on (R176). A write in progress goes on at the address it began with, the new one
good or not (log 38). -/
def statusTakeAddr (a : Nat) (s : State) : State :=
  let s := { s with status := { s.status with addr := some a } }
  if statusAddrOk a then s else statusStop s

/-- LINK_RESTART clears the stop and keeps the generation count (R176). -/
def statusRestart (s : State) : State := { s with status := { s.status with stopped := false } }

/-- The 250 ms period is due (R175). -/
def statusIsDue (s : State) : Bool := due s.now s.status.nextDue

/-- STATUS_PERIOD_DUE (R175): the table is written only while the link is FOLLOWING. -/
def execStatusPeriodDue (s : State) : Host.Outcome State Fault Refusal :=
  live s fun s =>
    if statusIsDue s then
      let s := { s with status := { s.status with
        nextDue := s.status.nextDue.map (fun t => after t Config.statusPeriod) } }
      if s.orders.link = .following then statusBegin s else s
    else s

/-- The address and value of the n-th of the 144 word writes: words 0 to 142, then word 0 again (R175, R183). -/
def statusWrite (s : State) (a n : Nat) : Nat × Word :=
  if n < Config.statusWords then (a + 4 * n, statusWord s n) else (a, s.status.generation)

/-- The failed write of a word stands in memory (R176): the odd generation of word 0 does, the even one of the last write does not,
and for a word between them the bus decides (log 24). -/
def statusLands (n : Nat) (landed : Bool) : Bool := decide (n = 0) || (decide (n < Config.statusWords) && landed)

/-- STATUS_WORD_WRITE_DONE (R175, R176). Before the last write the generation rises to its even value. A bus error stops
status writing, leaves the generation held even, and the one in memory odd. -/
def execStatusWordWriteDone (ans : WriteEnd) (s : State) : Host.Outcome State Fault Refusal :=
  live s fun s =>
    match s.status.write with
    | none => s
    | some (a, n) =>
      let w := statusWrite s a n
      match ans with
      | .ok =>
        { s with
          mem := Memory.writeWord s.mem w.1 w.2
          status := { s.status with
            generation := if n + 1 = Config.statusWords then s.status.generation + 1 else s.status.generation
            write := if n < Config.statusWords then some (a, n + 1) else none } }
      | .busError landed =>
        statusStop { s with
          mem := if statusLands n landed then Memory.writeWord s.mem w.1 w.2 else s.mem
          status := { s.status with
            generation := if n < Config.statusWords then s.status.generation + 1 else s.status.generation
            write := none } }

end Sys2Proof.Machine
end

