-- ==== Sys2Proof/Machine/Orders.lean ====
section
/-! DEFINITION. The Order Unit (R159-R168): the anchor read, following the chain, taking an order, the order slots and the
writing of results; and the access of an owner to the orders handed to it. -/

namespace Sys2Proof.Machine

/-! ### Link states (R160, R166) -/

/-- An anchor read fails (R159): LINK_FAULT; the link is HALTED where it was to join the chain, else it is STOPPED (R160, R166,
R167). -/
def anchorFail (joins : Bool) (s : State) : State :=
  raise .linkFault { s with orders := { s.orders with
    access := .idle, restarting := false, link := if joins then .halted else .stopped } }

/-- An anchor read begins, after the check of its address (R159). -/
def beginAnchor (restart : Bool) (s : State) : State :=
  let a := s.regs.anchor.toNat
  if decide (a % 16 = 0) && inWindow a 24 then
    { s with orders := { s.orders with access := .anchor a restart s.regs.start, restarting := false } }
  else anchorFail s.regs.start s

/-- The link has become or stayed STOPPED at the end of an access: a START set again since it was cleared acts now, by an anchor read
of its own (R160, R166; log 11). -/
def startAgain (s : State) : State := if s.regs.start then beginAnchor false s else s

/-- The link stops at its watched block (R166). A look that has fallen due and is not made stays due (R161; log 35). -/
def stopLink (s : State) : State :=
  startAgain (journalLeave { s with orders := { s.orders with
    link := .stopped, saved := s.orders.watched, watched := none, stopping := false, access := .idle } })

/-- The chain halts (R160, R162, R165); with START cleared meanwhile the link is STOPPED, the saved position kept. A look that has
fallen due and is not made stays due (R161; log 35). -/
def haltChain (s : State) : State :=
  let stopping := s.orders.stopping
  let s := journalLeave (raise .linkFault { s with orders := { s.orders with
    link := if stopping then .stopped else .halted, saved := s.orders.watched, watched := none,
    stopping := false, access := .idle } })
  if stopping then startAgain s else s

/-- Lowest-numbered FREE slot (R162 step 5). -/
def lowestFree (s : State) : Option SlotIx :=
  (List.finRange 16).find? (fun i => decide (s.orders.slots[i].state = .free))

/-- The write of the oldest held result begins (R165). -/
def startResult (s : State) : State :=
  match s.orders.heldQueue with
  | i :: _ => match s.orders.slots[i].state with
    | .finished h r => { s with orders := { s.orders with access := .detail i h r } }
    | .free => s
    | .occupied _ => s
  | [] => s

/-- A look begins: the watched block's link is read (R161). -/
def startLook (s : State) : State :=
  { s with orders := { s.orders with access := .link, lookDue := false } }

/-- With no access under way, the Order Unit stops if it is to stop, else begins a result write or a look; which of the two
goes first is free (R161, R165, 9.9; log 8). -/
def pumpOrders (s : State) : State :=
  if s.orders.link = .following ∧ s.orders.access = .idle then
    if s.orders.stopping then stopLink s
    else
      let look := s.orders.lookDue && (lowestFree s).isSome
      if s.orders.heldQueue = [] then (if look then startLook s else s)
      else if look then
        (if Config.freeBool s.freeCount then startLook (drawn s) else startResult (drawn s))
      else startResult s
  else s

/-- The link becomes FOLLOWING at the saved position or else at the given first order block (R160). -/
def joinLink (first : Nat) (s : State) : State :=
  pumpOrders (statusJoin (journalJoin { s with orders := { s.orders with
    link := .following, watched := some (s.orders.saved.getD first), saved := none } }))

/-! ### Order slots (R164) -/

/-- The ticket names an OPEN slot. -/
def ticketLive (s : State) (t : Ticket) : Bool :=
  match s.orders.slots[t.slot].state with
  | .occupied _ => decide (s.orders.slots[t.slot].use = t.use)
  | .free => false
  | .finished _ _ => false

/-- An owner ends an order: its OPEN slot becomes HELD; an end for any other ticket is discarded (R164). -/
def endOrder (t : Ticket) (r : Result) (s : State) : State :=
  match s.orders.slots[t.slot].state with
  | .occupied h =>
    if s.orders.slots[t.slot].use = t.use then
      pumpOrders { s with orders := { s.orders with
        slots := s.orders.slots.set t.slot ⟨t.use, .finished h r⟩
        heldQueue := s.orders.heldQueue ++ [t.slot] } }
    else s
  | .free => s
  | .finished _ _ => s

/-- The result of a slot has been written or lost: the slot is FREE (R164, R165). -/
def freeSlot (i : SlotIx) (s : State) : State :=
  { s with orders := { s.orders with
    slots := upd s.orders.slots i (fun (x : Slot) => { x with state := .free })
    heldQueue := s.orders.heldQueue.filter (fun j => decide (j ≠ i)) } }

/-- Step 5 of R162: the order takes the lowest FREE slot, is checked (R163), and is handed to its owner or ended. A slot that
a LINK_RESTART abandons is FREE again at once (R167). -/
def handOver (h : OrderHead) (ps : List Word) (abandoned : Bool) (s : State) : State :=
  match lowestFree s with
  | none => s
  | some i =>
    let t : Ticket := ⟨i, s.orders.slots[i].use + 1⟩
    let s := { s with orders := { s.orders with
      slots := s.orders.slots.set i ⟨t.use, if abandoned then .free else .occupied h⟩ } }
    match takingChecks s h ps with
    | .error code => endOrder t (Result.refused code) s
    | .ok body => { s with orders := { s.orders with handed := s.orders.handed ++ [⟨t, body⟩] } }

/-- The order handed over in a slot, of a kind, if it is the next its owner takes (R163, R74). -/
def handedOf (slot : SlotIx) (k : OrderKind) (s : State) : Option Handed :=
  match s.orders.handed.find? (fun h => decide (h.ticket.slot = slot ∧ h.body.kind = k)) with
  | some h =>
    if s.orders.handed.find? (fun g => decide (g.body.owner = h.body.owner)) = some h then some h else none
  | none => none

/-- An owner takes the order handed to it in a slot; nothing happens where there is none (log 3, 4). -/
def taking (slot : SlotIx) (k : OrderKind) (f : Ticket → OrderBody → State → State) (s : State) : State :=
  match handedOf slot k s with
  | some h => f h.ticket h.body { s with orders := { s.orders with handed := s.orders.handed.erase h } }
  | none => s

/-! ### START and LINK_RESTART (R160, R166, R167) -/

/-- START set (R160): from STOPPED the anchor is read. Where a read or a stop is under way, START acts when it ends (`startAgain`). -/
def startSet (s : State) : State :=
  if s.orders.link = .stopped ∧ s.orders.access = .idle then beginAnchor false s else s

/-- An anchor read under way goes on, and the link stays STOPPED at its end (R166). -/
def OrderAccess.unjoined : OrderAccess → OrderAccess
  | .anchor a restart _ => .anchor a restart false
  | .idle => .idle
  | .link => .link
  | .header b => .header b
  | .params h => .params h
  | .taken h ps => .taken h ps
  | .detail i h r => .detail i h r
  | .state i h r => .state i h r

/-- START cleared (R160, R166). -/
def startCleared (s : State) : State :=
  match s.orders.link with
  | .following =>
    if s.orders.access = .idle then stopLink s
    else { s with orders := { s.orders with stopping := true } }
  | .halted => { s with orders := { s.orders with link := .stopped } }
  | .stopped => { s with orders := { s.orders with access := s.orders.access.unjoined } }

/-- An announcement of an abandoned order plays on with no slot (R157, R167). -/
def Context.abandon (x : Context) : Context :=
  { x with origin := match x.origin with
    | .station => .station
    | .order _ => .order none }

/-- LINK_RESTART, outside LOADING (R167): the slots, the waiting plan (R95), the tallies (R157), the journal, the status stop
and the chain position go; the anchor is read anew when the access under way has ended. An order handed over and not yet taken stays
so, a LOAD_PLAN too (log 42). -/
def linkRestart (s : State) : State :=
  if s.part = .loading then s
  else
    let s := statusRestart (journalRestart s)
    let s := { s with
      plan := { s.plan with waiting := none }
      ann := { s.ann with
        tallies := []
        contexts := Vector.ofFn (fun (st : Station) => s.ann.contexts[st].map Context.abandon) } }
    let o := { s.orders with
      slots := Vector.ofFn (fun (i : SlotIx) => ⟨s.orders.slots[i].use, .free⟩)
      heldQueue := [], saved := none, watched := none, lookDue := false, stopping := false, link := .stopped }
    match s.orders.access with
    | .idle => beginAnchor true { s with orders := o }
    | .anchor _ _ _ => beginAnchor true { s with orders := { o with access := .idle } }
    | .link | .header _ | .params _ | .taken _ _ | .detail _ _ _ | .state _ _ _ =>
      { s with orders := { o with restarting := true } }

/-- The access under way at a LINK_RESTART has ended: the anchor read begins (R167). -/
def restartNow (s : State) : State := beginAnchor true { s with orders := { s.orders with access := .idle } }

/-! ### The anchor read (R159) -/

/-- Signature and first block check, the latter where the link is to begin at the first order block. -/
def anchorOk (ws : List Word) (first : Bool) : Bool :=
  let w1 := (ws.getD 1 0).toNat
  decide (ws.getD 0 0 = Config.anchorSignature)
    && (!first || (decide (w1 ≠ 0) && decide (w1 % 16 = 0) && inWindow w1 16))

/-- A successful read hands the anchor's contents on; the link becomes FOLLOWING, or stays STOPPED where START was cleared in the
read or was clear at a LINK_RESTART (R159, R160, R166, R167). -/
def anchorTaken (ws : List Word) (restart joins : Bool) (s : State) : State :=
  let s := { s with orders := { s.orders with access := .idle } }
  let s := takePhraseArea (ws.getD 4 0).toNat (ws.getD 5 0).toNat s
  let s := journalTakeList (ws.getD 2 0).toNat restart s
  let s := statusTakeAddr (ws.getD 3 0).toNat s
  if joins then joinLink (ws.getD 1 0).toNat s else startAgain s

/-- A read that fails (R159, R166). -/
def anchorLost (joins : Bool) (s : State) : State := if joins then anchorFail true s else startAgain (anchorFail false s)

/-- ANCHOR_READ_DONE (R159, R160, R166, R167). -/
def execAnchorReadDone (ans : WordsEnd) (s : State) : Host.Outcome State Fault Refusal :=
  live s fun s =>
    match s.orders.access with
    | .anchor _ restart joins =>
      match ans with
      | .busError => anchorLost joins s
      | .words ws =>
        if anchorOk ws (joins && s.orders.saved.isNone) then anchorTaken ws restart joins s else anchorLost joins s
    | .idle | .link | .header _ | .params _ | .taken _ _ | .detail _ _ _ | .state _ _ _ => s

/-! ### Following the chain (R161, R162) -/

/-- The 100 ms look period is due. -/
def lookIsDue (s : State) : Bool := reached s.now s.orders.nextLook

/-- A look falls due, in FOLLOWING alone (R161). -/
def lookNow (s : State) : State :=
  if s.orders.link = .following then pumpOrders { s with orders := { s.orders with lookDue := true } } else s

/-- CHAIN_LOOK_DUE (R161). -/
def execChainLookDue (s : State) : Host.Outcome State Fault Refusal :=
  live s fun s =>
    if lookIsDue s then
      lookNow { s with orders := { s.orders with nextLook := after s.orders.nextLook Config.lookPeriod } }
    else s

/-- LINK_WORD_READ_DONE (R161, R162 step 1). A block is word 0 to word 3 for the window check (log 12). -/
def execLinkWordReadDone (ans : ReadEnd) (s : State) : Host.Outcome State Fault Refusal :=
  live s fun s =>
    match s.orders.access with
    | .link =>
      if s.orders.restarting then restartNow s
      else match ans with
        | .busError => haltChain s
        | .word w =>
          if w = 0 then pumpOrders { s with orders := { s.orders with access := .idle } }
          else if decide (w.toNat % 16 = 0) && inWindow w.toNat 16 then
            { s with orders := { s.orders with access := .header w.toNat } }
          else haltChain s
    | .idle | .anchor _ _ _ | .header _ | .params _ | .taken _ _ | .detail _ _ _ | .state _ _ _ => s

/-- What follows the header of a block (R162 steps 2 and 3). -/
def headerRead (block : Nat) (w : Word) (s : State) : State :=
  let h := orderHead block w
  if byteAt w 0 ≠ pendingCode then haltChain s
  else if h.len = 0 ∨ 13 < h.len then { s with orders := { s.orders with access := .taken h [] } }
  else if inWindow block (12 + 4 * h.len) then { s with orders := { s.orders with access := .params h } }
  else haltChain s

/-- ORDER_HEADER_READ_DONE (R162 step 2). -/
def execOrderHeaderReadDone (ans : ReadEnd) (s : State) : Host.Outcome State Fault Refusal :=
  live s fun s =>
    match s.orders.access with
    | .header block =>
      if s.orders.restarting then restartNow s
      else match ans with
        | .busError => haltChain s
        | .word w => headerRead block w s
    | .idle | .anchor _ _ _ | .link | .params _ | .taken _ _ | .detail _ _ _ | .state _ _ _ => s

/-- ORDER_PARAMS_READ_DONE (R162 step 3). -/
def execOrderParamsReadDone (ans : WordsEnd) (s : State) : Host.Outcome State Fault Refusal :=
  live s fun s =>
    match s.orders.access with
    | .params h =>
      if s.orders.restarting then restartNow s
      else match ans with
        | .busError => haltChain s
        | .words ws => { s with orders := { s.orders with access := .taken h (slice ws 0 h.len) } }
    | .idle | .anchor _ _ _ | .link | .header _ | .taken _ _ | .detail _ _ _ | .state _ _ _ => s

/-- Word 1 of an order block, written with a state (R162, R165). -/
def writeWord1 (h : OrderHead) (state : Nat) (s : State) : State :=
  { s with mem := Memory.writeWord s.mem (h.block + 4) (h.word1 state) }

/-- Word 2 of an order block, written with a result (R165). -/
def writeWord2 (h : OrderHead) (r : Result) (s : State) : State :=
  { s with mem := Memory.writeWord s.mem (h.block + 8) r.word2 }

/-- The order is taken: its block is watched, it takes its slot, and a look falls due at once (R161, R162). -/
def orderTaken (h : OrderHead) (ps : List Word) (s : State) : State :=
  pumpOrders (handOver h ps false { s with orders := { s.orders with
    access := .idle, watched := some h.block, lookDue := true } })

/-- ORDER_TAKEN_WRITE_DONE (R162 steps 4 and 5, R163, R167). -/
def execOrderTakenWriteDone (ans : WriteEnd) (s : State) : Host.Outcome State Fault Refusal :=
  live s fun s =>
    match s.orders.access with
    | .taken h ps =>
      match ans with
      | .ok =>
        if s.orders.restarting then restartNow (handOver h ps true (writeWord1 h takenCode s))
        else orderTaken h ps (writeWord1 h takenCode s)
      | .busError landed =>
        let s := if landed then writeWord1 h takenCode s else s
        if s.orders.restarting then restartNow s else haltChain s
    | .idle | .anchor _ _ _ | .link | .header _ | .params _ | .detail _ _ _ | .state _ _ _ => s

/-! ### Writing results (R165) -/

/-- RESULT_DETAIL_WRITE_DONE (R165, R167). -/
def execResultDetailWriteDone (ans : WriteEnd) (s : State) : Host.Outcome State Fault Refusal :=
  live s fun s =>
    match s.orders.access with
    | .detail i h r =>
      match ans with
      | .ok =>
        let s := writeWord2 h r s
        if s.orders.restarting then restartNow s
        else { s with orders := { s.orders with access := .state i h r } }
      | .busError landed =>
        let s := if landed then writeWord2 h r s else s
        if s.orders.restarting then restartNow s else haltChain (freeSlot i s)
    | .idle | .anchor _ _ _ | .link | .header _ | .params _ | .taken _ _ | .state _ _ _ => s

/-- The state word of a result is written: ORDER_NOTIFY if the block asks for it (R165). -/
def resultWritten (h : OrderHead) (r : Result) (s : State) : State :=
  let s := writeWord1 h r.stateCode s
  if h.notify then raise .orderNotify s else s

/-- RESULT_STATE_WRITE_DONE (R165, R167). After a bus error the block shows TAKEN. Under a LINK_RESTART that waits, a write that
succeeds has ORDER_NOTIFY set as any other (log 10). -/
def execResultStateWriteDone (ans : WriteEnd) (s : State) : Host.Outcome State Fault Refusal :=
  live s fun s =>
    match s.orders.access with
    | .state i h r =>
      match ans with
      | .ok =>
        if s.orders.restarting then restartNow (resultWritten h r s)
        else
          let s := freeSlot i (resultWritten h r s)
          pumpOrders { s with orders := { s.orders with access := .idle } }
      | .busError _ => if s.orders.restarting then restartNow s else haltChain (freeSlot i s)
    | .idle | .anchor _ _ _ | .link | .header _ | .params _ | .taken _ _ | .detail _ _ _ => s

end Sys2Proof.Machine
end

