-- ==== Sys2Proof/Machine/Announce.lean ====
section
/-! DEFINITION. The Announcement Engine (R138-R158): contexts, prefetch, confirmation, ends, and the ANNOUNCE order. -/

namespace Sys2Proof.Machine

/-! ### The clip sequence (R138, R139) -/

/-- The descriptor part and the offset in it of a place counted from the first descriptor; vacant parts have none. -/
def descPlace : List Desc → Nat → Option (Desc × Nat)
  | [], _ => none
  | d :: ds, p => if p < d.len then some (d, p) else descPlace ds (p - d.len)

/-- Name part of an announcement at a station: its crossing's phrase in the name phrase store (R4, R139). -/
def nameClips (s : State) (st : Station) : List Nat :=
  match crossingOf s st with
  | some c => s.site.names[c]
  | none => []

/-- The name part of a context: empty for an announcement of an order. -/
def Context.namePart (x : Context) (names : List Nat) : List Nat := if x.hasName then names else []

/-- Number of places of the clip sequence. -/
def Context.total (x : Context) (names : List Nat) : Nat := (x.namePart names).length + (x.descs.map Desc.len).sum

/-- The fetch cursor (R140). -/
def Context.fetch (x : Context) : Nat := x.confirmed + x.buffer.length

/-- A mark of a place. -/
def Place.marked : Place → Bool
  | .good _ => false
  | .fetchFault | .formatFault => true

/-! ### Prefetch (R143, R144) -/

/-- The places of the name part inside the window are filled at once (R143). -/
def Context.fillName (x : Context) (names : List Nat) : Context :=
  { x with buffer := x.buffer
      ++ (((x.namePart names).drop x.fetch).take (Config.prefetchPlaces - x.buffer.length)).map Place.good }

/-- The descriptor place the fetch cursor stands on. -/
def Context.fetchPlace (x : Context) (names : List Nat) : Option (Desc × Nat) :=
  if x.fetch < (x.namePart names).length then none else descPlace x.descs (x.fetch - (x.namePart names).length)

/-- The word the Engine now reads for a context, if any (R143, R144). -/
def Context.nextRead (x : Context) (names : List Nat) : Option Nat :=
  if x.readInFlight || x.buffer.any Place.marked || decide (Config.prefetchPlaces ≤ x.buffer.length) then none
  else match x.fetchPlace names with
    | some (d, off) => some ((d.addr + off) / 4 * 4)
    | none => none

/-- Set the context of a station. -/
def setContext (st : Station) (x : Option Context) (s : State) : State :=
  { s with ann := { s.ann with contexts := s.ann.contexts.set st x } }

/-- Keep the prefetch buffer of a station's context filled: name places, then one read (R143). -/
def prefetch (st : Station) (s : State) : State :=
  match s.ann.contexts[st] with
  | none => s
  | some x =>
    let x := x.fillName (nameClips s st)
    match x.nextRead (nameClips s st) with
    | none => setContext st (some x) s
    | some a =>
      let s := setContext st (some { x with readInFlight := true }) s
      { s with ann := { s.ann with reads := s.ann.reads ++ [⟨st, x.serial, a⟩] } }

/-- The places one word of a descriptor part fills from the fetch cursor on: how many (R144). -/
def fillCount (x : Context) (d : Desc) (off : Nat) : Nat :=
  min (d.len - off) (min (4 - (d.addr + off) % 4) (Config.prefetchPlaces - x.buffer.length))

/-- A clip number as read: valid or a FORMAT_FAULT (R144). -/
def clipPlace (n : Nat) : Place := if validClip n then .good n else .formatFault

/-- A read for the announcement in the context fills its places (R144). -/
def Context.readDone (x : Context) (names : List Nat) (ans : ReadEnd) : Context :=
  let x := { x with readInFlight := false }
  match x.fetchPlace names with
  | none => x
  | some (d, off) =>
    let n := fillCount x d off
    match ans with
    | .word w =>
      { x with buffer := x.buffer ++ (List.range n).map (fun k => clipPlace (byteAt w ((d.addr + off) % 4 + k))) }
    | .busError => { x with buffer := x.buffer ++ List.replicate n .fetchFault }

/-! ### Ends (R149-R151, R157) -/

/-- The Engine sets a station's pending flush (R25). -/
def setFlush (st : Station) (s : State) : State :=
  { s with line := { s.line with flushPending := s.line.flushPending.set st true } }

/-- The seven counts of a tally as a detail (R157, R183). -/
def tallyDetail (v : Vector Nat 7) : Nat := v.toList.foldr (fun n acc => n + 16 * acc) 0

/-- The place of an outcome among the seven counts. -/
def AnnOutcome.index : AnnOutcome → Fin 7
  | .completed => 0 | .cut => 1 | .busy => 2 | .fetchFault => 3 | .formatFault => 4 | .notRunning => 5
  | .stationLost => 6

/-- An outcome counts in its order's tally; the last ends the order (R157). -/
def countOutcome (t : Ticket) (out : AnnOutcome) (s : State) : State :=
  match s.ann.tallies.find? (fun y => decide (y.ticket = t)) with
  | none => s
  | some y =>
    let counts := upd y.counts out.index (fun n => n + 1)
    let others := s.ann.tallies.filter (fun z => decide (z.ticket ≠ t))
    if y.toCome ≤ 1 then
      endOrder t (Result.done (tallyDetail counts)) { s with ann := { s.ann with tallies := others } }
    else
      { s with ann := { s.ann with tallies := ⟨t, y.toCome - 1, counts⟩ :: others } }

/-- The crossing number of a station in a record: 0 for a station that a swap has taken away (R151; log 4). -/
def stationCrossingNum (s : State) (st : Station) : Nat :=
  match crossingOf s st with
  | some c => num c
  | none => 0

/-- The end of a request (R151): its ANNOUNCE_END record, and its count in the tally of its order. The slot byte is 0 for origin
STATION (log 39). -/
def requestEnd (st : Station) (origin : Origin) (out : AnnOutcome) (clips : Nat) (s : State) : State :=
  match origin with
  | .station => produce (stationCrossingNum s st) (.announceEnd st out false 0 clips) s
  | .order none => produce (stationCrossingNum s st) (.announceEnd st out true 0 clips) s
  | .order (some t) =>
    countOutcome t out (produce (stationCrossingNum s st) (.announceEnd st out true (num t.slot) clips) s)

/-- The end of an announcement that had started (R151); `flush` for CUT and STATION_LOST outside LOCKOUT. -/
def endContext (st : Station) (out : AnnOutcome) (flush : Bool) (s : State) : State :=
  match s.ann.contexts[st] with
  | none => s
  | some x =>
    let s := setContext st none s
    let s := if flush then setFlush st s else s
    requestEnd st x.origin out x.confirmed s

/-- The mark of a deferred fault that now acts (R150). -/
def Context.faultNow (x : Context) : Option AnnOutcome :=
  if x.send = x.confirmed then
    match x.buffer with
    | .fetchFault :: _ => some .fetchFault
    | .formatFault :: _ => some .formatFault
    | .good _ :: _ => none
    | [] => none
  else none

/-- Look for a deferred fault, else go on reading (R143, R150). -/
def faultOrPrefetch (st : Station) (s : State) : State :=
  match s.ann.contexts[st] with
  | none => s
  | some x =>
    match x.faultNow with
    | some out => endContext st out false s
    | none => prefetch st s

/-- PHRASE_READ_DONE (R144): the n-th of the reads outstanding. A read of an announcement that is no longer in its context is
discarded. -/
def execPhraseReadDone (n : Nat) (ans : ReadEnd) (s : State) : Host.Outcome State Fault Refusal :=
  live s fun s =>
    match s.ann.reads[n]? with
    | none => s
    | some r =>
      let s := { s with ann := { s.ann with reads := s.ann.reads.eraseIdx n } }
      match s.ann.contexts[r.st] with
      | none => s
      | some x =>
        if x.serial = r.serial ∧ x.readInFlight then
          faultOrPrefetch r.st (setContext r.st (some (x.readDone (nameClips s r.st) ans)) s)
        else s

/-! ### Requests (R141, R142) -/

/-- A request for a station. -/
structure AnnRequest where
  priority : Nat
  origin : Origin
  hasName : Bool
  descs : List Desc
  deriving DecidableEq, Repr

/-- The state of a station's crossing; DARK for a station of no crossing, one that a swap has taken away (log 4). -/
def stationState (s : State) (st : Station) : CrossingState :=
  match crossingOf s st with
  | some c => s.crossings[c].state
  | none => .dark

/-- A request starts in a context (R142). -/
def startContext (st : Station) (q : AnnRequest) (suspended : Bool) (s : State) : State :=
  let x : Context :=
    { suspended := suspended, priority := q.priority, origin := q.origin, hasName := q.hasName, descs := q.descs,
      send := 0, confirmed := 0, buffer := [], readInFlight := false, serial := s.ann.nextSerial }
  let s := setContext st (some x) s
  prefetch st { s with ann := { s.ann with nextSerial := s.ann.nextSerial + 1 } }

/-- The clip sequence of a request has no place (R141). -/
def AnnRequest.isEmpty (q : AnnRequest) (names : List Nat) : Bool :=
  (if q.hasName then names else []).isEmpty && q.descs.all (fun d => d.len == 0)

/-- The Engine takes a request for a station (R141). -/
def request (st : Station) (q : AnnRequest) (s : State) : State :=
  if q.isEmpty (nameClips s st) then requestEnd st q.origin .completed 0 s
  else match s.ann.contexts[st] with
    | none =>
      if !(stationState s st).running then requestEnd st q.origin .notRunning 0 s
      else if stationLost s st then requestEnd st q.origin .stationLost 0 s
      else startContext st q (decide (stationState s st = .walk ∨ stationState s st = .clearance)) s
    | some x =>
      if x.priority < q.priority then startContext st q x.suspended (endContext st .cut true s)
      else requestEnd st q.origin .busy 0 s

/-- A descriptor of an ANNOUNCE order fails its check (R156). -/
def descOutside (area : Option (Nat × Nat)) (d : Desc) : Bool := decide (d.len ≠ 0) && !descUsable area d

/-- The target stations of an ANNOUNCE order (R156). -/
def Target.stations (s : State) : Target → List Station
  | .station st => [st]
  | .crossing c => stationsOf s c

/-- The ticket names a HELD slot: its order was ended before its owner took it, by LOCKOUT (R168). -/
def ticketEnded (s : State) (t : Ticket) : Bool :=
  match s.orders.slots[t.slot].state with
  | .finished _ _ => decide (s.orders.slots[t.slot].use = t.use)
  | .free => false
  | .occupied _ => false

/-- The Engine takes an ANNOUNCE order (R156, R157). One that LOCKOUT has ended makes its requests with its slot and no tally (R158),
and one whose ticket no longer names its slot with no slot and no tally (log 28). -/
def announceOrder (t : Ticket) (target : Target) (priority : Nat) (descs : List Desc) (s : State) : State :=
  match descs.findIdx? (descOutside s.site.phraseArea) with
  | some i => endOrder t (Result.refused .bounds i) s
  | none =>
    let sts := target.stations s
    if ticketLive s t then
      if sts = [] then endOrder t (Result.done 0) s
      else
        each sts (fun st => request st ⟨priority, .order (some t), false, descs⟩)
          { s with ann := { s.ann with tallies := s.ann.tallies ++ [⟨t, sts.length, Vector.replicate 7 0⟩] } }
    else
      each sts (fun st => request st ⟨priority, .order (if ticketEnded s t then some t else none), false, descs⟩) s

/-- ANNOUNCE (R156). -/
def execAnnounce (slot : SlotIx) (s : State) : Host.Outcome State Fault Refusal :=
  live s <| taking slot .announce fun t b s =>
    match b with
    | .announce target priority descs => announceOrder t target priority descs s
    | .loadSite _ | .storeSite | .loadPlan _ | .setMode _ _ | .remoteCall _ _ _ | .cancelCalls _ _
    | .testStation _ _ | .corridorHold _ => s

/-! ### Confirmation (R146-R149) -/

/-- The confirmed cursor moves on by the clips played, not beyond the send cursor (R146). -/
def Context.confirm (x : Context) (delta : Nat) : Context :=
  let k := min delta (x.send - x.confirmed)
  { x with confirmed := x.confirmed + k, buffer := x.buffer.drop k }

/-- The clips played between two values of the played counter; none from UNKNOWN (R146). -/
def playedDelta (baseline : Option Nat) (played : Nat) : Nat :=
  match baseline with
  | some b => (played + 256 - b) % 256
  | none => 0

/-- Every clip has been sent and confirmed, and the station's queue is empty (R149). -/
def Context.completed (x : Context) (names : List Nat) (free : Nat) : Bool :=
  decide (x.send = x.total names ∧ x.confirmed = x.total names ∧ free = 4)

/-- The Engine takes the played counter and the free count of a delivered reply; `flushed`: the reply answers FLUSH (R146,
R148-R150). -/
def engineDeliver (st : Station) (played free : Nat) (flushed : Bool) (s : State) : State :=
  let delta := playedDelta s.ann.baseline[st] played
  let s := { s with ann := { s.ann with
    baseline := s.ann.baseline.set st (some played)
    room := s.ann.room.set st (some (if flushed then 4 else free)) } }
  match s.ann.contexts[st] with
  | none => s
  | some x =>
    let x := x.confirm delta
    let x := if flushed then { x with send := x.confirmed } else x
    let s := setContext st (some x) s
    if x.completed (nameClips s st) free then endContext st .completed false s
    else faultOrPrefetch st s

/-- An exchange with the station failed: clips it carried are in doubt, and a flush is set (R147). -/
def engineFailed (st : Station) (carriedClips : Bool) (s : State) : State :=
  if carriedClips then setFlush st s else s

/-! ### Across a walk and cuts (R152-R154) -/

/-- A context is suspended at WALK entry, with a flush (R152). -/
def suspendContext (st : Station) (s : State) : State :=
  match s.ann.contexts[st] with
  | some x => if x.suspended then s else setFlush st (setContext st (some { x with suspended := true }) s)
  | none => s

/-- A context is resumed at RED_AFTER_WALK entry (R153). -/
def resumeContext (st : Station) (s : State) : State :=
  match s.ann.contexts[st] with
  | some x => setContext st (some { x with suspended := false }) s
  | none => s

/-- Contexts of a crossing's stations, in station order. -/
def suspendContexts (c : Crossing) (s : State) : State := each (stationsOf s c) suspendContext s
def resumeContexts (c : Crossing) (s : State) : State := each (stationsOf s c) resumeContext s
/-- The crossing leaves the running states: every context of its stations ends CUT (R154). -/
def cutContexts (c : Crossing) (s : State) : State :=
  each (stationsOf s c) (fun st => endContext st .cut true) s

/-- The station becomes LOST (R154). -/
def engineStationLost (st : Station) (s : State) : State :=
  endContext st .stationLost true { s with ann := { s.ann with room := s.ann.room.set st none } }

/-- Entry to LOCKOUT (R158): every context ends CUT with no flush, and the tallies are discarded. -/
def engineLockout (s : State) : State :=
  each allStations (fun st => endContext st .cut false) { s with ann := { s.ann with tallies := [] } }

end Sys2Proof.Machine
end

