-- ==== Sys2Proof/Machine/Aspects.lean ====
section
/-! DEFINITION. The commanded aspects at the Proof Monitor (R108) and the change of a crossing's state with its aspects and its
STATE record (R59, R60). -/

namespace Sys2Proof.Machine

/-- The sequencer sets the commanded pair on entry to a state other than FLASH (R108). -/
def ProofRec.command (p : Pair) (r : ProofRec) : ProofRec :=
  if p = r.commanded then r
  else
    { r with
      commanded := p
      state := if r.state = .waived then .waived else .checking
      allowance := if r.state = .waived then r.allowance else 2
      flashCheck := if p = Pair.flash then r.flashCheck else false }

/-- The entry to FLASH (R108): a fresh allowance under the flash check, unless WAIVED. -/
def ProofRec.commandFlash (r : ProofRec) : ProofRec :=
  if r.state = .waived then { r with commanded := Pair.flash, flashCheck := false }
  else { r with commanded := Pair.flash, state := .checking, allowance := 2, flashCheck := true }

/-- Change the proof record of a crossing, where it has one. -/
def setProof (c : Crossing) (f : ProofRec → ProofRec) (s : State) : State :=
  { s with proofs := upd s.proofs c (Option.map f) }

/-- The aspects of a state are commanded (R59, R108). -/
def commandState (c : Crossing) (st : CrossingState) (s : State) : State :=
  setProof c (if st = .flash then ProofRec.commandFlash else ProofRec.command st.aspects) s

/-- A crossing enters a state: its aspects are commanded in the same step, and the change writes a STATE record (R59, R60). -/
def enterState (c : Crossing) (st : CrossingState) (cause : Cause) (s : State) : State :=
  let old := s.crossings[c].state
  let s := commandState c st (setCrossing c (fun (r : CrossingRecord) => { r with state := st }) s)
  if old = st then s else produce (num c) (.state old st cause) s

end Sys2Proof.Machine
end

