-- ==== Sys2Proof/Machine/Commit.lean ====
section
/-! DEFINITION. Commit (R48, R64-R66, R70) and absorption into the service record (R71). -/

namespace Sys2Proof.Machine

/-- A duration of a site record in tenths, in ms (R58). -/
def tenths (n : Nat) : Nat := 100 * n

/-- The later of two times. -/
def later (a b : Time) : Time := if reached a b then a else b

/-- Highest grade in a list of entries, 0 when it is empty (R45). -/
def topGrade (es : List Entry) : Nat := (es.map Entry.grade).foldr max 0

/-- A STOP order is pending. -/
def CrossingRecord.stopPending (r : CrossingRecord) : Bool :=
  match r.order with
  | some o => !o.start
  | none => false

/-- The minimum green of a crossing has elapsed. -/
def CrossingRecord.greenElapsed (r : CrossingRecord) : Bool :=
  match r.minGreen with
  | some (_, e) => e
  | none => false

/-- Commit is due (R64). -/
def commitDue (s : State) (c : Crossing) : Bool :=
  let r := s.crossings[c]
  decide (r.state = .vehGreen) && r.greenElapsed && decide (s.hold.state ≠ .active) && r.mode.isRun
    && !r.stopPending && decide (r.mask < topGrade s.calls[c])

/-- The service record built from the entries taken (R70); the list is in arrival order. -/
def Service.ofEntries (es : List Entry) : Service :=
  { grade := topGrade es, accessible := es.any Entry.accessible, callsTaken := es.length,
    oldest := (es.head?.map Entry.arrival).getD 0, absorbed := 0, entries := es }

/-- The commit: the Call Table hands every entry over, and the crossing enters VEH_AMBER (R48, R66). -/
def commit (c : Crossing) (s : State) : State :=
  let es := s.calls[c]
  let s := { s with calls := s.calls.set c [] }
  let s := setCrossing c (fun (r : CrossingRecord) => { r with
    minGreen := none, timer := some (after s.now (tenths (crossingRec s c).amber)),
    service := some (Service.ofEntries es) }) s
  enterState c .vehAmber .call s

/-- An evaluation of commit (R65). -/
def evaluateCommit (c : Crossing) (s : State) : State := if commitDue s c then commit c s else s

/-- An absorption into a service record (R71). -/
def Service.absorb (v : Service) (counts : Bool) (grade : Nat) (accessible : Bool) : Service :=
  { v with grade := max v.grade grade, accessible := v.accessible || accessible,
           absorbed := if counts then min 255 (v.absorbed + 1) else v.absorbed }

/-- The sequencer takes an absorption; `counts` for a press event or a REMOTE_CALL. A service newly accessible in an uncut WALK
moves the walk end (R71). -/
def absorb (c : Crossing) (counts : Bool) (grade : Nat) (accessible : Bool) (s : State) : State :=
  let x := crossingRec s c
  setCrossing c (fun (r : CrossingRecord) =>
    match r.service with
    | none => r
    | some v =>
      let moved := decide (r.state = .walk) && !r.walkCut && accessible && !v.accessible
      { r with
        service := some (v.absorb counts grade accessible)
        timer := if moved then
            match r.timer, r.walkStart with
            | some e, some w => some (later e (after w (tenths (x.walkTime + x.extension))))
            | t, _ => t
          else r.timer }) s

/-- Service grade of a crossing, 0 with no service record. -/
def serviceGrade (s : State) (c : Crossing) : Nat :=
  match s.crossings[c].service with
  | some v => v.grade
  | none => 0

/-- The service of a crossing is accessible. -/
def serviceAccessible (s : State) (c : Crossing) : Bool :=
  match s.crossings[c].service with
  | some v => v.accessible
  | none => false

end Sys2Proof.Machine
end

