-- ==== Sys2Proof/Machine/Calls.lean ====
section
/-! DEFINITION. The Call Table (R41-R56): entries, merging, escalation, WAIT lamps, recall, REMOTE_CALL and CANCEL_CALLS. -/

namespace Sys2Proof.Machine

/-! ### Entries (R43, R44, R46) -/

/-- The wait limit in force, in s (R46, R94). -/
def waitLimit (s : State) : Nat :=
  match s.plan.inForce with
  | some p => p.waitLimit
  | none => Config.defaultWaitLimit

/-- A new entry (R43), with its expiry time while the grade is below 4 (R46). -/
def newEntry (s : State) (src : Source) (grade : Nat) (accessible recalled : Bool) : Entry :=
  { source := src, grade := grade, accessible := accessible, recalled := recalled, arrival := s.now,
    expiry := if grade < 4 then some (after s.now (1000 * waitLimit s)) else none }

/-- A merge into an entry (R44). -/
def Entry.merge (e : Entry) (grade : Nat) (accessible recalled : Bool) : Entry :=
  { e with grade := max e.grade grade, accessible := e.accessible || accessible, recalled := e.recalled || recalled,
           expiry := if max e.grade grade < 4 then e.expiry else none }

/-- The entry of a source in a list. -/
def entryOf (es : List Entry) (src : Source) : Option Entry := es.find? (fun e => decide (e.source = src))

/-- What a press, a call or recall does to a crossing's list: the entry of its source changed, or a new one at the tail. -/
def listWith (s : State) (es : List Entry) (src : Source) (grade : Nat) (accessible recalled : Bool) : List Entry :=
  match entryOf es src with
  | none => es ++ [newEntry s src grade accessible recalled]
  | some _ => es.map (fun (e : Entry) => if e.source = src then e.merge grade accessible recalled else e)

/-- The outcome (R42, R44). -/
def listOutcome (es : List Entry) (src : Source) (grade : Nat) (accessible : Bool) : PressOutcome :=
  match entryOf es src with
  | none => .entered
  | some e => if e.grade < grade ∨ (accessible = true ∧ e.accessible = false) then .upgraded else .merged

/-- The list gains an entry or a grade in it rises, so the sequencer is told (R45). -/
def listTells (es : List Entry) (src : Source) (grade : Nat) : Bool :=
  match entryOf es src with
  | none => true
  | some e => decide (e.grade < grade)

/-- Grade of a source's entry, 0 for none. -/
def listGrade (es : List Entry) (src : Source) : Nat := ((entryOf es src).map Entry.grade).getD 0

/-- Replace a crossing's list. -/
def setCalls (c : Crossing) (es : List Entry) (s : State) : State := { s with calls := s.calls.set c es }

/-- The states in which the Call Table enters calls (R42). -/
def CrossingState.enters : CrossingState → Bool
  | .startup | .vehGreen | .clearance | .redAfterWalk => true
  | .dark | .maint | .flash | .vehAmber | .redBeforeWalk | .walk => false

/-- The states in which calls are absorbed (R42). -/
def CrossingState.absorbs : CrossingState → Bool
  | .vehAmber | .redBeforeWalk | .walk => true
  | .dark | .maint | .flash | .startup | .vehGreen | .clearance | .redAfterWalk => false

/-! ### WAIT lamps (R50) -/

/-- Set a WAIT lamp. -/
def setLamp (st : Station) (on : Bool) (s : State) : State := { s with lamps := s.lamps.set st on }

/-- Turn off every lamp of a crossing. -/
def lampsOff (c : Crossing) (s : State) : State := { s with lamps := setAll s.lamps (stationsOf s c) false }

/-! ### Press events and long events (R38, R42) -/

/-- The Call Table takes a press event (grade 1) or a long event (grade 3, accessible) of a station of a crossing: the outcome
and the state after it. The commit that a press event makes due comes before the long event of the same delivery, which is then an
absorption (log 33). -/
def takePress (st : Station) (c : Crossing) (long : Bool) (s : State) : PressOutcome × State :=
  let grade := if long then 3 else 1
  let es := s.calls[c]
  let x := s.crossings[c].state
  if x.enters then
    let out := listOutcome es (.station st) grade long
    let es' := listWith s es (.station st) grade long false
    let s := setLamp st true (setCalls c es' s)
    let s := produce (num c) (.press st out (listGrade es' (.station st))) s
    (out, if listTells es (.station st) grade then evaluateCommit c s else s)
  else if x.absorbs then
    let s := absorb c (!long) grade long s
    let s := if x = .walk then s else setLamp st true s
    (.absorbed, produce (num c) (.press st .absorbed (serviceGrade s c)) s)
  else (.ignored, produce (num c) (.press st .ignored 0) s)

/-! ### Escalation (R47) and the return of entries (R49) -/

/-- An escalated entry. -/
def Entry.escalate (e : Entry) : Entry := { e with grade := 4, expiry := none }

/-- An entry of a crossing's list from a source is escalated, with its record; the telling is the caller's. -/
def escalateEntry (c : Crossing) (src : Source) (s : State) : State :=
  let es := s.calls[c].map (fun (e : Entry) => if e.source = src then e.escalate else e)
  produce (num c) (.escalated src) (setCalls c es s)

/-- The expiry time of a crossing's entry of a source is reached. -/
def expiryIsDue (s : State) (c : Crossing) (src : Source) : Bool :=
  match entryOf s.calls[c] src with
  | some e => due s.now e.expiry
  | none => false

/-- CALL_EXPIRY (R47). -/
def execCallExpiry (c : Crossing) (src : Source) (s : State) : Host.Outcome State Fault Refusal :=
  live s fun s => if expiryIsDue s c src then evaluateCommit c (escalateEntry c src s) else s

/-- Entries come back from a service record (R49): placed in arrival order, escalated where their expiry has passed, the lamps of
stations with no entry put out, and the sequencer told once. -/
def returnEntries (c : Crossing) (es : List Entry) (s : State) : State :=
  let s := setCalls c (es ++ s.calls[c]) s
  let s := each (es.filter (fun e => due s.now e.expiry)) (fun e => escalateEntry c e.source) s
  let out := (stationsOf s c).filter (fun st => (entryOf s.calls[c] (.station st)).isNone)
  evaluateCommit c { s with lamps := setAll s.lamps out false }

/-! ### Recall (R51) -/

/-- A configured crossing in a running state has no station, or every one LOST. -/
def recallHolds (s : State) (c : Crossing) : Bool :=
  s.crossings[c].state.running && configured s c && (stationsOf s c).all (stationLost s)

/-- A recall entry is made or merged (R51). -/
def recallEntry (c : Crossing) (s : State) : State :=
  let es := s.calls[c]
  let s := setCalls c (listWith s es .remote 1 false true) s
  if listTells es .remote 1 then evaluateCommit c s else s

/-- Set the recall flag (R51, R57). -/
def setRecall (c : Crossing) (b : Bool) (s : State) : State :=
  setCrossing c (fun (r : CrossingRecord) => { r with recalled := b }) s

/-- Recall begins: its entry is made at once, but in VEH_AMBER, RED_BEFORE_WALK and WALK (R51). -/
def recallBegins (c : Crossing) (s : State) : State :=
  let s := setRecall c true s
  if s.crossings[c].state.absorbs then s else recallEntry c s

/-- A station of a crossing has become LOST (R21, R51). -/
def callsStationLost (c : Crossing) (s : State) : State :=
  if recallHolds s c && !s.crossings[c].recalled then recallBegins c s else s

/-- A station of a crossing has become ACTIVE (R51). -/
def callsStationFound (c : Crossing) (s : State) : State := setRecall c false s

/-- The crossing enters STARTUP (R51, R61). -/
def callsStartup (c : Crossing) (s : State) : State := if recallHolds s c then recallBegins c s else s

/-- The crossing enters VEH_GREEN (R51, R62). -/
def callsVehGreen (c : Crossing) (s : State) : State := if s.crossings[c].recalled then recallEntry c s else s

/-! ### Leaving service (R54, R55) -/

/-- Every entry of a crossing's list is removed, with one CALL_DROPPED record if there was one. -/
def dropList (c : Crossing) (cause : DropCause) (s : State) : State :=
  let n := s.calls[c].length
  let s := setCalls c [] s
  if n = 0 then s else produce (num c) (.callDropped n cause) s

/-- The crossing enters DARK, MAINT or FLASH (R50, R54). -/
def callsStopped (c : Crossing) (s : State) : State :=
  setRecall c false (lampsOff c (dropList c .notRunning s))

/-- Entry to LOCKOUT (R55). -/
def callsLockout (s : State) : State :=
  let s := each allCrossings (fun c => dropList c .lockout) s
  each allCrossings (fun c => setRecall c false)
    { s with lamps := Vector.replicate 32 false, press := Vector.replicate 32 PressState.cleared }

/-! ### Host calls (R52, R53) -/

/-- The Call Table takes a REMOTE_CALL order (R42, R52). -/
def remoteCall (t : Ticket) (c : Crossing) (grade : Nat) (accessible : Bool) (s : State) : State :=
  let x := s.crossings[c].state
  if x.enters then
    let es := s.calls[c]
    let detail := if (entryOf es .remote).isNone then 0 else 1
    let s := endOrder t (Result.done detail) (setCalls c (listWith s es .remote grade accessible false) s)
    if listTells es .remote grade then evaluateCommit c s else s
  else if x.absorbs then endOrder t (Result.done 2) (absorb c true grade accessible s)
  else endOrder t (Result.refused .notReady) s

/-- REMOTE_CALL (R52). -/
def execRemoteCall (slot : SlotIx) (s : State) : Host.Outcome State Fault Refusal :=
  live s <| taking slot .remoteCall fun t b s =>
    match b with
    | .remoteCall c grade accessible => remoteCall t c grade accessible s
    | .loadSite _ | .storeSite | .loadPlan _ | .setMode _ _ | .cancelCalls _ _ | .announce _ _ _
    | .testStation _ _ | .corridorHold _ => s

/-- Whether a CANCEL_CALLS of a scope removes an entry (R53). -/
def cancels (all : Bool) (e : Entry) : Bool := all || (decide (e.source = .remote) && !e.recalled)

/-- The station of an entry. -/
def sourceStation : Source → Option Station
  | .station st => some st
  | .remote => none

/-- The Call Table takes a CANCEL_CALLS order (R53). -/
def cancelCalls (t : Ticket) (c : Crossing) (all : Bool) (s : State) : State :=
  let gone := s.calls[c].filter (cancels all)
  let s := setCalls c (s.calls[c].filter (fun e => !cancels all e)) s
  let s := if gone = [] then s else produce (num c) (.callDropped gone.length .cancelled) s
  let s := { s with lamps := setAll s.lamps (gone.filterMap (fun e => sourceStation e.source)) false }
  endOrder t (Result.done gone.length) s

/-- CANCEL_CALLS (R53). -/
def execCancelCalls (slot : SlotIx) (s : State) : Host.Outcome State Fault Refusal :=
  live s <| taking slot .cancelCalls fun t b s =>
    match b with
    | .cancelCalls c all => cancelCalls t c all s
    | .loadSite _ | .storeSite | .loadPlan _ | .setMode _ _ | .remoteCall _ _ _ | .announce _ _ _
    | .testStation _ _ | .corridorHold _ => s

end Sys2Proof.Machine
end

