-- ==== Sys2Proof/Machine/Cues.lean ====
section
/-! DEFINITION. The Cue Allocator (R129-R136) and the state sound wanted for a station (R122). -/

namespace Sys2Proof.Machine

/-- Home pattern of a crossing (R2, R130). -/
def homePattern (s : State) (c : Crossing) : Pattern :=
  match (crossingRec s c).home with
  | 1 => 0
  | 2 => 1
  | _ => 2

/-- A hearing neighbour of the crossing holds the pattern (R132). -/
def heldAround (s : State) (c : Crossing) (p : Pattern) : Bool :=
  s.site.hearing[c].any (fun m => decide (s.cues.cue[m] = .pattern p))

/-- The grant to a crossing: its home pattern, else the lowest free one, else the name cue (R132). -/
def grantFor (s : State) (c : Crossing) : Option Pattern :=
  if heldAround s c (homePattern s c) then (List.finRange 3).find? (fun p => !heldAround s c p)
  else some (homePattern s c)

/-- A crossing entering WALK asks for a pattern (R131). -/
def cueRequest (c : Crossing) (s : State) : State :=
  { s with cues := { s.cues with cue := s.cues.cue.set c .awaiting, queue := s.cues.queue ++ [c] } }

/-- A crossing leaving WALK gives its cue up (R134). -/
def cueRelease (c : Crossing) (s : State) : State :=
  { s with cues := { s.cues with cue := s.cues.cue.set c .none,
                                 queue := s.cues.queue.filter (fun d => decide (d ≠ c)) } }

/-- The request at the head of the queue is answered (R131, R132). -/
def cueAnswer (c : Crossing) (rest : List Crossing) (s : State) : State :=
  let g := grantFor s c
  let s := match g with
    | some p => { s with cues := { s.cues with queue := rest, cue := s.cues.cue.set c (.pattern p) } }
    | none => { s with cues := { s.cues with
        queue := rest, cue := s.cues.cue.set c .name, namePos := setAll s.cues.namePos (stationsOf s c) 0 } }
  produce (num c) (.cue g) s

/-- CUE_GRANT (R131). -/
def execCueGrant (s : State) : Host.Outcome State Fault Refusal :=
  live s fun s =>
    match s.cues.queue with
    | c :: rest => cueAnswer c rest s
    | [] => s

/-- Entry to LOCKOUT (R136). -/
def cuesLockout (s : State) : State :=
  { s with cues := { s.cues with cue := Vector.replicate 8 .none, queue := [] } }

/-- The state sound wanted for the stations of a crossing (R122). -/
def crossingSound (s : State) (c : Crossing) : Sound :=
  match s.crossings[c].state with
  | .dark | .maint | .flash => .silent
  | .startup | .vehGreen | .vehAmber | .redBeforeWalk | .redAfterWalk => .locator
  | .clearance => .clearTick
  | .walk => match s.cues.cue[c] with
    | .pattern p => .walkPattern p
    | .name => .nameCue
    | .none | .awaiting => .silent

/-- The state sound wanted for a station (R122). -/
def wantedSound (s : State) (st : Station) : Sound :=
  match crossingOf s st with
  | some c => crossingSound s c
  | none => .silent

/-- Content of a NAME_CUE poll of a station: length, position, clips (R129). -/
def nameCueContent (s : State) (st : Station) : Nat × Nat × List Nat :=
  match crossingOf s st with
  | some c =>
    let names := s.site.names[c]
    let p := s.cues.namePos[st]
    (names.length, p, (names.drop p).take 2)
  | none => (0, 0, [])

/-- The name-cue position after a NAME_CUE poll has been sent (R129). -/
def nameCueSent (st : Station) (s : State) : State :=
  let n := (nameCueContent s st).1
  let p := s.cues.namePos[st] + 2
  { s with cues := { s.cues with namePos := s.cues.namePos.set st (if n ≤ p then 0 else p) } }

end Sys2Proof.Machine
end

