-- ==== Sys2Proof/Machine/StationTests.lean ====
section
/-! DEFINITION. Station tests (R29-R32): taking the order, and the ends of a test. -/

namespace Sys2Proof.Machine

/-- Cause of a test ended early (R32, R183). -/
inductive TestAbort where
  | leftMaint | stationLost | noResult
  deriving DecidableEq, Repr

def TestAbort.code : TestAbort → Nat
  | .leftMaint => 1 | .stationLost => 2 | .noResult => 3

/-- Set the test state of a station. -/
def setTest (st : Station) (t : TestState) (s : State) : State :=
  { s with line := { s.line with tests := s.line.tests.set st t } }

/-- Ticket of a running test. -/
def TestState.ticket? : TestState → Option Ticket
  | .none => Option.none
  | .tone t _ => some t
  | .loop t _ _ => some t

/-- The test of a station, if one runs, ends with a result (R30-R32). -/
def endTest (st : Station) (r : Result) (s : State) : State :=
  match s.line.tests[st].ticket? with
  | some t => endOrder t r (setTest st .none s)
  | none => s

/-- An early end (R30, R32). -/
def abortTest (st : Station) (cause : TestAbort) (s : State) : State :=
  endTest st (Result.refused .aborted (16 * cause.code)) s

/-- A test ends DONE OK with its kind and its level or echo count (R30, R31, R183). -/
def testDone (st : Station) (k : TestKind) (n : Nat) (s : State) : State :=
  endTest st (Result.done (k.code + 16 * n)) s

/-- The crossing leaves MAINT: the tests on its stations end (R32). -/
def abortTests (c : Crossing) (s : State) : State := each (stationsOf s c) (fun st => abortTest st .leftMaint) s

/-- The Line Controller takes a TEST_STATION order (R29). A station that a swap since the taking has left unconfigured has no crossing
in MAINT, so the order is refused NOT_READY (log 4). -/
def testStation (t : Ticket) (st : Station) (k : TestKind) (s : State) : State :=
  let x := match crossingOf s st with
    | some c => s.crossings[c].state
    | none => .dark
  if x ≠ .maint then endOrder t (Result.refused .notReady) s
  else if stationLost s st then endOrder t (Result.refused .nodeLost) s
  else if s.line.tests[st] ≠ .none then endOrder t (Result.refused .busy) s
  else setTest st (match k with | .tone => .tone t none | .loop => .loop t 0 0) s

/-- TEST_STATION (R29). -/
def execTestStation (slot : SlotIx) (s : State) : Host.Outcome State Fault Refusal :=
  live s <| taking slot .testStation fun t b s =>
    match b with
    | .testStation st k => testStation t st k s
    | .loadSite _ | .storeSite | .loadPlan _ | .setMode _ _ | .remoteCall _ _ _ | .cancelCalls _ _
    | .announce _ _ _ | .corridorHold _ => s

/-- 3.0 s have passed from the first test poll of a tone test. -/
def toneTimeoutIsDue (s : State) (st : Station) : Bool :=
  match s.line.tests[st] with
  | .tone _ d => due s.now d
  | .none => false
  | .loop _ _ _ => false

/-- TONE_TEST_TIMEOUT (R30). -/
def execToneTestTimeout (st : Station) (s : State) : Host.Outcome State Fault Refusal :=
  live s fun s => if toneTimeoutIsDue s st then abortTest st .noResult s else s

end Sys2Proof.Machine
end

