-- ==== Sys2Proof/Machine/Sequencer.lean ====
section
/-! DEFINITION. The Crossing Sequencers (R57-R86): entry to each state, the expiries of the walk cycle, FLASH, and SET_MODE. -/

namespace Sys2Proof.Machine

/-! ### Entry to the states -/

/-- The mask in use in a mode (R63). -/
def maskOf (m : Mode) (planMask : Nat) : Nat :=
  match m with
  | .runCoord => planMask
  | .dark | .maint | .runFree => 0

/-- Timers, walk fields and countdown cleared, the service record discarded (R79, R81, R84). -/
def CrossingRecord.cleared (r : CrossingRecord) : CrossingRecord :=
  { r with timer := none, minGreen := none, walkStart := none, walkCut := false, countdown := 0, service := none }

/-- The pending acknowledgements of a crossing's stations are cleared (R125). -/
def clearAcks (c : Crossing) (s : State) : State :=
  { s with line := { s.line with ackPending := setAll s.line.ackPending (stationsOf s c) false } }

/-- Entry to STARTUP in a RUN mode (R61). -/
def enterStartup (c : Crossing) (m : Mode) (cause : Cause) (s : State) : State :=
  let old := s.crossings[c].state
  let s := setCrossing c (fun (r : CrossingRecord) => { r with
    mode := m, mask := maskOf m r.planMask, timer := some (after s.now Config.startupTime) }) s
  let s := callsStartup c (enterState c .startup cause s)
  if old = .maint then abortTests c s else s

/-- A pending START ends DONE OK (R62, R76). -/
def completeStart (c : Crossing) (s : State) : State :=
  match s.crossings[c].order with
  | some o =>
    if o.start then
      endOrder o.ticket (Result.done o.target.code) (setCrossing c (fun (r : CrossingRecord) => { r with order := none }) s)
    else s
  | none => s

/-- Entry to VEH_GREEN (R62). -/
def enterGreen (c : Crossing) (cause : Cause) (s : State) : State :=
  let t := after s.now (1000 * (crossingRec s c).minGreen)
  let s := setCrossing c (fun (r : CrossingRecord) => { r.cleared with minGreen := some (t, false) }) s
  completeStart c (callsVehGreen c (enterState c .vehGreen cause s))

/-- State of a stop target. -/
def Mode.stopState : Mode → CrossingState
  | .maint => .maint
  | .dark | .runFree | .runCoord => .dark

/-- Entry to DARK or MAINT by a SET_MODE (R79). The ANNOUNCE orders of the contexts cut end before the tests aborted (log 34). -/
def enterTarget (c : Crossing) (m : Mode) (s : State) : State :=
  let old := s.crossings[c].state
  let s := setCrossing c (fun (r : CrossingRecord) => { r.cleared with mode := m, mask := 0 }) s
  let s := clearAcks c (cutContexts c (callsStopped c (enterState c m.stopState .order s)))
  if old = .maint ∧ m.stopState ≠ .maint then abortTests c s else s

/-- A pending STOP is carried out: entry to its target, and DONE OK (R78, R82), after the orders the entry ends (log 34). -/
def completeStop (c : Crossing) (o : PendingOrder) (s : State) : State :=
  let s := setCrossing c (fun (r : CrossingRecord) => { r with order := none }) s
  endOrder o.ticket (Result.done o.target.code) (enterTarget c o.target s)

/-- Entry to VEH_GREEN, or to the target of a pending STOP in place of it (R78). -/
def enterGreenOrStop (c : Crossing) (cause : Cause) (s : State) : State :=
  match s.crossings[c].order with
  | some o => if o.start then enterGreen c cause s else completeStop c o s
  | none => enterGreen c cause s

/-- Entry to RED_BEFORE_WALK (R66). -/
def enterRedBefore (c : Crossing) (s : State) : State :=
  let t := after s.now (tenths (crossingRec s c).redBefore)
  enterState c .redBeforeWalk .timer (setCrossing c (fun (r : CrossingRecord) => { r with timer := some t }) s)

/-- Walk time of a service (R67). -/
def walkTime (x : CrossingRec) (accessible : Bool) : Nat := tenths (x.walkTime + if accessible then x.extension else 0)

/-- CALL_SERVED of a service at WALK entry (R67). -/
def servedRecord (v : Service) (now : Time) : RecordBody :=
  .callServed v.grade v.accessible v.callsTaken v.absorbed (now - v.oldest)

/-- Entry to WALK (R67). -/
def enterWalk (c : Crossing) (s : State) : State :=
  let t := after s.now (walkTime (crossingRec s c) (serviceAccessible s c))
  let s := setCrossing c (fun (r : CrossingRecord) => { r with
    timer := some t, walkStart := some s.now, walkCut := false }) s
  let s := enterState c .walk .timer s
  let s := match s.crossings[c].service with
    | some v => produce (num c) (servedRecord v s.now) s
    | none => s
  suspendContexts c (lampsOff c (cueRequest c s))

/-- Clearance duration in whole seconds, rounded up (R68). -/
def clearanceTime (x : CrossingRec) (accessible : Bool) : Nat :=
  let speed := if accessible then x.accessibleSpeed else x.normalSpeed
  (x.width + speed - 1) / speed

/-- Entry to CLEARANCE (R68). -/
def enterClearance (c : Crossing) (s : State) : State :=
  let n := clearanceTime (crossingRec s c) (serviceAccessible s c)
  let s := cueRelease c s
  let s := setCrossing c (fun (r : CrossingRecord) => { r with
    timer := some (after s.now (1000 * n)), countdown := n, walkStart := none, walkCut := false }) s
  enterState c .clearance .timer s

/-- Entry to RED_AFTER_WALK (R69). -/
def enterRedAfter (c : Crossing) (s : State) : State :=
  let t := after s.now (tenths (crossingRec s c).redAfter)
  let s := setCrossing c (fun (r : CrossingRecord) => { r with timer := some t, countdown := 0 }) s
  resumeContexts c (enterState c .redAfterWalk .timer s)

/-- What entry to FLASH does to a pending SET_MODE order (R82). -/
def flashOrder (c : Crossing) (s : State) : State :=
  match s.crossings[c].order with
  | none => s
  | some o =>
    if o.start then
      endOrder o.ticket (Result.refused .aborted) (setCrossing c (fun (r : CrossingRecord) => { r with order := none }) s)
    else completeStop c o s

/-- A demand for FLASH (R81, R82); in FLASH it changes nothing. The orders it ends come in the order of R81's effects: the ANNOUNCE
orders of the contexts cut, the tests aborted, the pending SET_MODE (log 34). -/
def enterFlash (c : Crossing) (s : State) : State :=
  let old := s.crossings[c].state
  if old = .flash then s
  else
    let s := setCrossing c (fun (r : CrossingRecord) => { r.cleared with mask := 0 }) s
    let s := if old = .walk then cueRelease c s else s
    let s := clearAcks c (cutContexts c (callsStopped c (enterState c .flash .fault s)))
    flashOrder c (if old = .maint then abortTests c s else s)

/-- Return from RED_BEFORE_WALK to VEH_GREEN under a hold (R104). -/
def holdReturn (c : Crossing) (s : State) : State :=
  let es := match s.crossings[c].service with
    | some v => v.entries
    | none => []
  enterGreenOrStop c .hold (returnEntries c es s)

/-! ### The expiries of the walk cycle -/

/-- The state timer of a crossing in a state has been reached (R58). -/
def timerIsDue (s : State) (c : Crossing) (st : CrossingState) : Bool :=
  decide (s.crossings[c].state = st) && due s.now s.crossings[c].timer

/-- STARTUP_EXPIRY (R61, R78). -/
def execStartupExpiry (c : Crossing) (s : State) : Host.Outcome State Fault Refusal :=
  live s fun s => if timerIsDue s c .startup then enterGreenOrStop c .timer s else s

/-- The minimum green of a crossing has been reached and is not yet marked elapsed. -/
def minGreenIsDue (s : State) (c : Crossing) : Bool :=
  decide (s.crossings[c].state = .vehGreen) &&
    match s.crossings[c].minGreen with
    | some (t, e) => reached s.now t && !e
    | none => false

/-- MIN_GREEN_EXPIRY (R62, R65). -/
def execMinGreenExpiry (c : Crossing) (s : State) : Host.Outcome State Fault Refusal :=
  live s fun s =>
    if minGreenIsDue s c then
      evaluateCommit c (setCrossing c (fun (r : CrossingRecord) => { r with
        minGreen := r.minGreen.map (fun m => (m.1, true)) }) s)
    else s

/-- AMBER_EXPIRY (R66). -/
def execAmberExpiry (c : Crossing) (s : State) : Host.Outcome State Fault Refusal :=
  live s fun s => if timerIsDue s c .vehAmber then enterRedBefore c s else s

/-- RED_BEFORE_WALK_EXPIRY (R66, R102). -/
def execRedBeforeWalkExpiry (c : Crossing) (s : State) : Host.Outcome State Fault Refusal :=
  live s fun s =>
    if timerIsDue s c .redBeforeWalk then
      (if s.hold.state = .active then holdReturn c s else enterWalk c s)
    else s

/-- WALK_END_EXPIRY (R67, R68). -/
def execWalkEndExpiry (c : Crossing) (s : State) : Host.Outcome State Fault Refusal :=
  live s fun s => if timerIsDue s c .walk then enterClearance c s else s

/-- A whole second of CLEARANCE after entry has been reached, before its end (R68). -/
def secondIsDue (s : State) (c : Crossing) : Bool :=
  let r := s.crossings[c]
  decide (r.state = .clearance) && decide (1 < r.countdown) &&
    match r.timer with
    | some t => reached s.now (t - BitVec.ofNat 32 (1000 * (r.countdown - 1)))
    | none => false

/-- COUNTDOWN_SECOND (R68). -/
def execCountdownSecond (c : Crossing) (s : State) : Host.Outcome State Fault Refusal :=
  live s fun s =>
    if secondIsDue s c then
      setCrossing c (fun (r : CrossingRecord) => { r with countdown := r.countdown - 1 }) s
    else s

/-- CLEARANCE_EXPIRY (R68, R69). -/
def execClearanceExpiry (c : Crossing) (s : State) : Host.Outcome State Fault Refusal :=
  live s fun s => if timerIsDue s c .clearance then enterRedAfter c s else s

/-- RED_AFTER_WALK_EXPIRY (R69, R78). -/
def execRedAfterWalkExpiry (c : Crossing) (s : State) : Host.Outcome State Fault Refusal :=
  live s fun s => if timerIsDue s c .redAfterWalk then enterGreenOrStop c .timer s else s

/-! ### SET_MODE (R72-R80) -/

/-- A pending order is superseded (R73). -/
def supersede (c : Crossing) (s : State) : State :=
  match s.crossings[c].order with
  | some o =>
    endOrder o.ticket (Result.refused .superseded)
      (setCrossing c (fun (r : CrossingRecord) => { r with order := none }) s)
  | none => s

/-- An order that waits becomes the pending order (R73, R76, R78). -/
def setPending (c : Crossing) (o : PendingOrder) (s : State) : State :=
  setCrossing c (fun (r : CrossingRecord) => { r with order := some o }) s

/-- Change of mode in a running state (R63, R77). -/
def changeMode (c : Crossing) (m : Mode) (s : State) : State :=
  setCrossing c (fun (r : CrossingRecord) => { r with mode := m, mask := maskOf m r.planMask }) s

/-- A SET_MODE that has passed its checks and superseded (R72, R76-R79). An order done at once ends after those the entry to its target
ends (log 34). -/
def dealMode (t : Ticket) (c : Crossing) (m : Mode) (s : State) : State :=
  let st := s.crossings[c].state
  if m.isRun then
    if st.running then evaluateCommit c (endOrder t (Result.done m.code) (changeMode c m s))
    else setPending c ⟨t, true, m⟩ (enterStartup c m .order s)
  else if st.running && decide (st ≠ .vehGreen) then setPending c ⟨t, false, m⟩ s
  else endOrder t (Result.done m.code) (if st = m.stopState then s else enterTarget c m s)

/-- The sequencer takes a SET_MODE order (R72, R73). A crossing that a swap since the taking has left unconfigured stays DARK, with
BAD_PARAM (R1, R86; log 4). -/
def setModeOrder (t : Ticket) (c : Crossing) (m : Mode) (s : State) : State :=
  if !configured s c then endOrder t (Result.refused .badParam) s
  else if s.site.load.isSome then endOrder t (Result.refused .busy) s
  else if m.isRun && headLost s c then endOrder t (Result.refused .nodeLost) s
  else dealMode t c m (supersede c s)

/-- SET_MODE (R72). -/
def execSetMode (slot : SlotIx) (s : State) : Host.Outcome State Fault Refusal :=
  live s <| taking slot .setMode fun t b s =>
    match b with
    | .setMode c m => setModeOrder t c m s
    | .loadSite _ | .storeSite | .loadPlan _ | .remoteCall _ _ _ | .cancelCalls _ _ | .announce _ _ _
    | .testStation _ _ | .corridorHold _ => s

/-- Entry to LOCKOUT at one sequencer (R84). A pair that changes to DARK clears the flash check (R108, R116); proof state, allowance,
proven pair and lamp-fault flags stay, for no allowance or check follows (R121; log 41). -/
def sequencerLockout (c : Crossing) (s : State) : State :=
  let old := s.crossings[c].state
  let s := setCrossing c (fun (r : CrossingRecord) => { r.cleared with
    mode := .dark, state := .dark, mask := 0, order := none }) s
  let s := setProof c (fun (p : ProofRec) => { p with commanded := Pair.dark, flashCheck := false }) s
  if old = .dark then s else produce (num c) (.state old .dark .fault) s

/-! ### Messages of the Plan Unit (R63, R90) -/

/-- The Plan Unit tells the sequencer a plan mask: it is recorded in every state, used at once in a running RUN_COORD, and commit
is evaluated (R63, R65). -/
def tellPlanMask (c : Crossing) (mask : Nat) (s : State) : State :=
  evaluateCommit c (setCrossing c (fun (r : CrossingRecord) => { r with
    planMask := mask
    mask := if r.state.running && decide (r.mode = .runCoord) then mask else r.mask }) s)

/-! ### Messages of the Hold Logic (R101-R106) -/

/-- A hold in WALK shortens it (R105). -/
def holdCut (c : Crossing) (s : State) : State :=
  let r := s.crossings[c]
  match r.walkStart with
  | none => s
  | some w =>
    let e := later s.now (after w Config.cutWalk)
    let s := setCrossing c (fun (r : CrossingRecord) => { r with timer := some e, walkCut := true }) s
    if reached s.now e then enterClearance c s else s

/-- A hold has begun (R101, R103, R105). -/
def holdBegan (c : Crossing) (s : State) : State :=
  match s.crossings[c].state with
  | .redBeforeWalk => holdReturn c s
  | .walk => holdCut c s
  | .dark | .maint | .flash | .startup | .vehGreen | .vehAmber | .clearance | .redAfterWalk => s

end Sys2Proof.Machine
end

