-- ==== Sys2Proof/Machine/Hold.lean ====
section
/-! DEFINITION. The Hold Logic (R96-R106): the HOLD_IN pin, the combined request, the hold timer, and the CORRIDOR_HOLD order. -/

namespace Sys2Proof.Machine

/-- The combined request is active (R96). -/
def HoldLogic.request (h : HoldLogic) : Bool := h.pinActive || h.hostFlag

/-- The hold limit in force, in s (R94, R98). -/
def holdLimit (s : State) : Nat :=
  match s.plan.inForce with
  | some p => p.holdLimit
  | none => Config.defaultHoldLimit

/-- A change of the hold state: its HOLD record and the HOLD attention flag (R97). -/
def holdChange (st : HoldState) (timer : Option Time) (e : HoldEvent) (src : HoldSource) (s : State) : State :=
  raise .hold (produce 0 (.hold e src) { s with hold := { s.hold with state := st, timer := timer } })

/-- The combined request has changed (R97); `src` is the input whose change changed it. The pending STOPs that a hold's beginning carries
out end in ascending crossing number (log 34). -/
def requestChanged (src : HoldSource) (s : State) : State :=
  match s.hold.state, s.hold.request with
  | .idle, true =>
    each allCrossings holdBegan
      (holdChange .active (some (after s.now (1000 * holdLimit s))) .began src s)
  | .active, false => each allCrossings evaluateCommit (holdChange .idle none .ended src s)
  | .spent, false => holdChange .idle none .released src s
  | .idle, false => s
  | .active, true => s
  | .spent, true => s

/-- An input of the request is changed; the Hold Logic acts when the combination changes (R96, R97). -/
def changeInput (src : HoldSource) (f : HoldLogic → HoldLogic) (s : State) : State :=
  let was := s.hold.request
  let s := { s with hold := f s.hold }
  if s.hold.request = was then s else requestChanged src s

/-- HOLD_IN_EDGE (R96): a change of level starts its qualification of 100 ms; a return to the qualified level ends it. -/
def execHoldInEdge (low : Bool) (s : State) : Host.Outcome State Fault Refusal :=
  live s fun s =>
    if low = s.hold.rawActive then s
    else { s with hold := { s.hold with
      rawActive := low
      qualify := if low = s.hold.pinActive then none else some (after s.now Config.holdQualify) } }

/-- A new level of HOLD_IN has stood for 100 ms. -/
def qualifyIsDue (s : State) : Bool := due s.now s.hold.qualify

/-- HOLD_IN_QUALIFIED (R96). -/
def execHoldInQualified (s : State) : Host.Outcome State Fault Refusal :=
  live s fun s =>
    if qualifyIsDue s then
      changeInput .pin (fun (h : HoldLogic) => { h with pinActive := h.rawActive, qualify := none }) s
    else s

/-- The inputs active at the expiry of the hold timer (R97). -/
def HoldLogic.activeInputs (h : HoldLogic) : HoldSource :=
  if h.pinActive then (if h.hostFlag then .both else .pin) else .order

/-- The hold timer of an ACTIVE hold has been reached. -/
def holdTimerIsDue (s : State) : Bool := decide (s.hold.state = .active) && due s.now s.hold.timer

/-- HOLD_TIMER_EXPIRY (R98). -/
def execHoldTimerExpiry (s : State) : Host.Outcome State Fault Refusal :=
  live s fun s =>
    if holdTimerIsDue s then
      each allCrossings evaluateCommit (holdChange .spent none .spent s.hold.activeInputs s)
    else s

/-- Code of the hold state in a detail (R99, R183). -/
def HoldState.detail : HoldState → Nat
  | .idle => 0 | .active => 1 | .spent => 2

/-- The Hold Logic takes a CORRIDOR_HOLD order (R99), which ends after the orders that the hold's beginning ends (log 34). -/
def corridorHold (t : Ticket) (on : Bool) (s : State) : State :=
  let s := changeInput .order (fun (h : HoldLogic) => { h with hostFlag := on }) s
  endOrder t (Result.done s.hold.state.detail) s

/-- CORRIDOR_HOLD (R99). -/
def execCorridorHold (slot : SlotIx) (s : State) : Host.Outcome State Fault Refusal :=
  live s <| taking slot .corridorHold fun t b s =>
    match b with
    | .corridorHold on => corridorHold t on s
    | .loadSite _ | .storeSite | .loadPlan _ | .setMode _ _ | .remoteCall _ _ _ | .cancelCalls _ _
    | .announce _ _ _ | .testStation _ _ => s

end Sys2Proof.Machine
end

