-- ==== Sys2Proof/Machine/Press.lean ====
section
/-! DEFINITION. The Press Filter (R34-R40). -/

namespace Sys2Proof.Machine

/-- Change the press state of a station. -/
def setPress (st : Station) (f : PressState → PressState) (s : State) : State :=
  { s with press := upd s.press st f }

/-- A press or long event goes to the Call Table; a taken one sets the pending acknowledgement (R38, R125). -/
def handEvent (st : Station) (c : Crossing) (long : Bool) (s : State) : PressOutcome × State :=
  let r := takePress st c long s
  if r.1 = .ignored then r
  else (r.1, { r.2 with line := { r.2.line with ackPending := r.2.line.ackPending.set st true } })

/-- Step 1 of R35: the counter. -/
def pressCounterStep (st : Station) (c : Crossing) (f : StationFields) (s : State) : State :=
  let p := s.press[st]
  let s := setPress st (fun (p : PressState) => { p with last := some f.pressCounter }) s
  if p.last = none ∨ p.last = some f.pressCounter ∨ p.stuck then s
  else
    (handEvent st c false
      (setPress st (fun (p : PressState) => { p with inProgress := f.down, longTaken := false }) s)).2

/-- A long event is made of a delivery (R35 step 2, R36). -/
def longNow (p : PressState) (f : StationFields) (threshold : Nat) : Bool :=
  p.inProgress && !p.longTaken && f.down && decide (threshold ≤ f.hold)

/-- Step 2 of R35: the long press. Whether it asks for the spoken information (R39). -/
def longPressStep (st : Station) (c : Crossing) (f : StationFields) (s : State) : Bool × State :=
  if longNow s.press[st] f (crossingRec s c).longPress then
    let r := handEvent st c true (setPress st (fun (p : PressState) => { p with longTaken := true }) s)
    (decide (r.1 ≠ .ignored) && decide (r.2.orders.link = .following) && !(usableInfo r.2 c).isEmpty, r.2)
  else (false, s)

/-- Steps 3 and 4 of R35: release, and STUCK (R37). -/
def releaseStep (st : Station) (c : Crossing) (f : StationFields) (s : State) : State :=
  if f.down then
    if f.hold = 255 ∧ s.press[st].stuck = false then
      produce (num c) (.press st .stuck 0)
        (setPress st (fun (p : PressState) => { p with stuck := true, inProgress := false }) s)
    else s
  else setPress st (fun (p : PressState) => { p with inProgress := false, stuck := false }) s

/-- The Press Filter takes a delivered reply (R35); whether an info request is made (R39). -/
def pressDeliver (st : Station) (c : Crossing) (f : StationFields) (s : State) : Bool × State :=
  let r := longPressStep st c f (pressCounterStep st c f s)
  (r.1, releaseStep st c f r.2)

/-- The station has become LOST (R40). -/
def pressStationLost (st : Station) (s : State) : State :=
  setPress st (fun (p : PressState) => { p with inProgress := false, longTaken := false }) s

/-- The station info request of a long event (R39, R155). -/
def infoRequest (st : Station) (c : Crossing) (s : State) : State :=
  request st ⟨1, .station, true, usableInfo s c⟩ s

end Sys2Proof.Machine
end

