-- ==== Sys2Proof/Machine/Proof.lean ====
section
/-! DEFINITION. The Proof Monitor (R107-R118) and entry to LOCKOUT (R119, R120). -/

namespace Sys2Proof.Machine

/-! ### LOCKOUT (R119, R120) -/

/-- The Line Controller at entry to LOCKOUT (R18, R32, R33). -/
def lineLockout (s : State) : State :=
  { s with line := { s.line with
    scanPos := none, roundsWaiting := 0, exchange := none, tests := Vector.replicate 32 .none,
    flushPending := Vector.replicate 32 false, ackPending := Vector.replicate 32 false } }

/-- The order in a slot, if OPEN, ends ABORTED (R168). -/
def abortSlot (i : SlotIx) (s : State) : State :=
  endOrder ⟨i, s.orders.slots[i].use⟩ (Result.refused .aborted) s

/-- The Order Unit at entry to LOCKOUT (R168). Of the orders handed over and not yet taken an ANNOUNCE still reaches the Engine, which
ends its requests NOT_RUNNING (R158); every other reaches no owner (log 18). -/
def ordersLockout (s : State) : State :=
  each (List.finRange 16) abortSlot { s with orders := { s.orders with
    handed := s.orders.handed.filter (fun h => decide (h.body.kind = .announce)) } }

/-- The heads lose their power with SAFE_OUT open, and start fallen back when it returns (R23, R119). -/
def headsLosePower (s : State) : State :=
  { s with street := { s.street with heads := Vector.replicate 64 HeadNode.fallback } }

/-- Entry to LOCKOUT: the Register block, and each block by its own rule (R119, R120). -/
def enterLockout (s : State) : State :=
  let s := raise .fault { s with part := .lockout, safeOut := false }
  let s := headsLosePower (lineLockout s)
  let s := { s with site := { s.site with load := none }, plan := { s.plan with waiting := none } }
  let s := callsLockout s
  let s := each allCrossings sequencerLockout s
  let s := cuesLockout s
  ordersLockout (engineLockout s)

/-! ### Checking a reply (R109-R112) -/

/-- A pair in conflict (R110). -/
def Pair.conflict (p : Pair) : Bool :=
  decide ((p.ped = .walk ∨ p.ped = .flashDontWalk) ∧ (p.veh = .green ∨ p.veh = .amber))

/-- The crossing is in FLASH, or in MAINT with its flash check set (R109, R117). -/
def underFlash (s : State) (c : Crossing) (p : ProofRec) : Bool :=
  decide (s.crossings[c].state = .flash) || (decide (s.crossings[c].state = .maint) && p.flashCheck)

/-- A FAULT record of a proof record (R110-R113, R118). -/
def faultRecord (c : Crossing) (k : FaultKind) (p : ProofRec) (s : State) : State :=
  produce (num c) (.fault k p.commanded p.proven p.lamps) s

/-- A fault that demands FLASH: its record, the FAULT attention flag, and the demand (R110, R111, R113). -/
def faultFlash (c : Crossing) (k : FaultKind) (p : ProofRec) (s : State) : State :=
  enterFlash c (raise .fault (faultRecord c k p s))

/-- A head has failed proof: the second failure under a flash check, else a mismatch (R111, R118). -/
def failedProof (c : Crossing) (p : ProofRec) (s : State) : State :=
  if underFlash s c p then enterLockout (faultRecord c .flashUnproven p s) else faultFlash c .mismatch p s

/-- One LAMP record for each flag newly set (R112). -/
def lampRecords (c : Crossing) (old : BitVec 4) (p : ProofRec) (s : State) : State :=
  each ((List.range 4).filter (fun k => p.lamps.getLsbD k && !old.getLsbD k)) (fun _ => faultRecord c .lamp p) s

/-- A current reply is compared with the commanded pair (R111). -/
def checkCurrent (c : Crossing) (p : ProofRec) (proven : Pair) (s : State) : State :=
  if proven = p.commanded then
    match p.state with
    | .checking => setProof c (fun (r : ProofRec) => { r with state := .steady, allowance := 0, flashCheck := false }) s
    | .steady => s
    | .waived => s
  else
    match p.state with
    | .checking =>
      let s := setProof c (fun (r : ProofRec) => { r with allowance := r.allowance - 1 }) s
      if 2 ≤ p.allowance then s else failedProof c p s
    | .steady => failedProof c p s
    | .waived => s

/-- The delivery of a head reply; `carried` is the pair its NORMAL poll carried (R109). -/
def proofDeliver (c : Crossing) (carried proven : Pair) (lamps : BitVec 4) (s : State) : State :=
  match s.proofs[c] with
  | none => s
  | some old =>
    let p := { old with proven := some proven, lamps := lamps }
    let s := lampRecords c old.lamps p (setProof c (fun _ => p) s)
    if !underFlash s c p && proven.conflict then faultFlash c .conflict p s
    else if carried = p.commanded then checkCurrent c p proven s
    else s

/-! ### Head loss (R113, R114) -/

/-- The head of a crossing has become LOST (R113). -/
def proofHeadLost (c : Crossing) (s : State) : State :=
  match s.proofs[c] with
  | none => s
  | some p =>
    faultFlash c .headLost p
      (setProof c (fun (r : ProofRec) => { r with state := .waived, allowance := 0, flashCheck := false }) s)

/-- The head has become ACTIVE again (R114). -/
def proofHeadFound (c : Crossing) (s : State) : State :=
  setProof c (fun (r : ProofRec) => { r with
    state := .checking, allowance := 2, flashCheck := decide (s.crossings[c].state = .flash) }) s

/-- The proof record of a newly configured crossing (R121). -/
def ProofRec.fresh (x : CrossingRec) : ProofRec :=
  { headAddr := x.headAddr, commanded := Pair.dark, proven := none, lamps := 0#4, state := .checking,
    allowance := 2, flashCheck := false }

end Sys2Proof.Machine
end

