-- ==== Sys2Proof/Machine/Street.lean ====
section
/-! DEFINITION. The head and station nodes as the part's polls leave them (R23, R26, R123, R128; log 23): not the part's own
state, but what its rules say the nodes do with its polls. -/

namespace Sys2Proof.Machine

/-- A head acts on a NORMAL poll it has heard (R23). -/
def HeadNode.hear (p : Pair) (countdown : Nat) (now : Time) : HeadNode :=
  { shown := p, countdown := if p.ped = .flashDontWalk then countdown else 0,
    watch := some (after now Config.nodeWatch) }

/-- A head at its watch (R23): FLASH_AMBER and DARK, countdown blanked. -/
def HeadNode.tick (now : Time) (h : HeadNode) : HeadNode := if due now h.watch then HeadNode.fallback else h

/-- The clips of a CLIPS poll that find a free place (R26). -/
def appendClips (queue clips : List Nat) : List Nat := queue ++ clips.take (4 - queue.length)

/-- The cue store after a NAME_CUE poll (R128). -/
def writeCue (store : Vector (Option Nat) 16) (p : Nat) : List Nat → Vector (Option Nat) 16
  | [] => store
  | k :: ks =>
    writeCue (if h : p < 16 then store.set p (some k) else store) (p + 1) ks

/-- What the audio command of a heard STATION poll does (R26, R123, R128). -/
def StationNode.command (q : StationPoll) (n : StationNode) : StationNode :=
  let empty : Vector (Option Nat) 16 := Vector.replicate 16 none
  match q.cmd with
  | .clips => { n with clipQueue := appendClips n.clipQueue q.clips, toneTest := false }
  | .flush => { n with clipQueue := [], toneTest := false }
  | .ackTone => { n with toneTest := false }
  | .toneTest => { n with sound := .silent, store := empty, cueLen := 0, toneTest := true }
  | .sound .nameCue =>
    let store := if n.sound = .nameCue ∧ n.cueLen = q.cueLen then n.store else empty
    { n with sound := .nameCue, store := writeCue store q.cuePos q.clips, cueLen := q.cueLen, toneTest := false }
  | .sound w => { n with sound := w, store := empty, cueLen := 0, toneTest := false }

/-- A station acts on a STATION poll it has heard (R26). -/
def StationNode.hear (q : StationPoll) (now : Time) (n : StationNode) : StationNode :=
  { n.command q with volume := q.volume, lamp := q.lamp, tactile := q.tactile,
                     watch := some (after now Config.nodeWatch) }

/-- A station acts on a TEST poll it has heard (R26, R123). -/
def StationNode.hearTest (now : Time) (n : StationNode) : StationNode :=
  { n with watch := some (after now Config.nodeWatch) }

/-- A station at its watch (R26, R123, R128); its counters and its button are its own. That it then holds volume 0, which R26 does not
name, is the model's (DESIGN CHOICE, log 46). -/
def StationNode.tick (now : Time) (n : StationNode) : StationNode :=
  if due now n.watch then
    { StationNode.quiet with played := n.played, pressCounter := n.pressCounter, down := n.down }
  else n

/-- A station reports (R27): its counters, its button, and through the free count how much of its queue it has played. -/
def StationNode.report (f : StationFields) (n : StationNode) : StationNode :=
  { n with played := f.played, pressCounter := f.pressCounter, down := f.down,
           clipQueue := n.clipQueue.drop (n.clipQueue.length - (4 - f.free)) }

/-- The node an exchange addressed hears its poll. -/
def streetHear (x : Exchange) (s : State) : State :=
  match x.poll with
  | .normal p n => { s with street := { s.street with heads := s.street.heads.set x.addr (HeadNode.hear p n s.now) } }
  | .probe => s
  | .station q =>
    { s with street := { s.street with stations := upd s.street.stations x.addr (StationNode.hear q s.now) } }
  | .test _ =>
    { s with street := { s.street with stations := upd s.street.stations x.addr (StationNode.hearTest s.now) } }

/-- A node has answered: it heard the poll; a station reports. -/
def streetAnswer (x : Exchange) (r : Reply) (s : State) : State :=
  let s := streetHear x s
  match r with
  | .station f =>
    { s with street := { s.street with stations := upd s.street.stations x.addr (StationNode.report f) } }
  | .head _ _ => s
  | .echo _ => s

/-- An exchange failed: whether its node heard the poll is free (R28, Note; log 23). -/
def streetDoubt (x : Exchange) (s : State) : State :=
  if Config.freeBool s.freeCount then streetHear x (drawn s) else drawn s

/-- An exchange that a swap or a reset abandons (R13, R179): its reply is lost, and whether its node heard the poll is as free as in
a failed one (log 23). -/
def streetAbandon (s : State) : State :=
  match s.line.exchange with
  | none => s
  | some x => streetDoubt x s

/-- One millisecond at the nodes: the watches that run out. -/
def streetTick (s : State) : State :=
  { s with street :=
    { heads := Vector.ofFn (fun (a : NodeAddr) => s.street.heads[a].tick s.now)
      stations := Vector.ofFn (fun (a : NodeAddr) => s.street.stations[a].tick s.now) } }

/-- What a head shows: nothing with SAFE_OUT open (R119). -/
def headShows (s : State) (a : NodeAddr) : Pair := if s.safeOut then s.street.heads[a].shown else Pair.dark

end Sys2Proof.Machine
end

