-- ==== Sys2Proof/Machine/Line.lean ====
section
/-! DEFINITION. The Line Controller (R15-R33, R122, R124-R127, R145): the scan, the polls, and the ends of an exchange. -/

namespace Sys2Proof.Machine

/-! ### Building a STATION poll (R25, R126, R145) -/

/-- The sound change of a station is pending (R124). -/
def soundPending (s : State) (st : Station) : Bool := decide (s.line.confirmed[st] ≠ some (wantedSound s st))

/-- The states in which announcement clips may sound (R145). -/
def CrossingState.speaks : CrossingState → Bool
  | .startup | .vehGreen | .vehAmber | .redBeforeWalk | .redAfterWalk => true
  | .dark | .maint | .flash | .walk | .clearance => false

/-- The consecutive GOOD places at the head of a list. -/
def goodClips : List Place → List Nat
  | .good n :: ps => n :: goodClips ps
  | .fetchFault :: _ => []
  | .formatFault :: _ => []
  | [] => []

/-- The clips the Engine offers for a station (R145). -/
def offer (s : State) (st : Station) : List Nat :=
  match s.ann.contexts[st], s.ann.room[st] with
  | some x, some room =>
    if !x.suspended && (stationState s st).speaks && !s.line.flushPending[st] && !soundPending s st then
      (goodClips (x.buffer.drop (x.send - x.confirmed))).take (min 2 room)
    else []
  | _, _ => []

/-- A poll to a station in a tone test carries TONE_TEST: once begun always, and at the first visit whose poll before carried no test
(R29, R30). -/
def toneNow (s : State) (st : Station) : Bool :=
  match s.line.tests[st] with
  | .tone _ (some _) => true
  | .tone _ none => !s.line.lastPollTest[st]
  | .none => false
  | .loop _ _ _ => false

/-- The audio command of a station's poll, the first wanted in the order of R25. -/
def audioCommand (s : State) (st : Station) : AudioCmd :=
  if toneNow s st then .toneTest
  else if s.line.flushPending[st] then .flush
  else if s.line.ackPending[st] then .ackTone
  else if offer s st ≠ [] then .clips
  else .sound (wantedSound s st)

/-- Base volume: the smaller of the cap and the ambient level plus 2 (R126). -/
def baseVolume (cap ambient : Nat) : Nat := min cap (ambient + 2)

/-- Volume of a station's poll (R126, R127). -/
def volumeOf (s : State) (st : Station) (cmd : AudioCmd) : Nat :=
  match crossingOf s st with
  | none => 0
  | some c =>
    let cap := (crossingRec s c).volumeCap
    let base := baseVolume cap ((stationNode s st).getD default).ambient
    if cmd = .toneTest then cap
    else if s.crossings[c].state = .walk ∧ serviceAccessible s c = true then min 15 (base + 3)
    else base

/-- The tactile output of a station (R25). -/
def tactileOf (s : State) (st : Station) : Bool := decide (stationState s st = .walk)

/-- The STATION poll of a station, built at this moment (R25). -/
def stationPoll (s : State) (st : Station) : StationPoll :=
  let cmd := audioCommand s st
  let cue := nameCueContent s st
  { cmd := cmd
    clips := match cmd with
      | .clips => offer s st
      | .sound .nameCue => cue.2.2
      | .sound _ | .flush | .ackTone | .toneTest => []
    volume := volumeOf s st cmd
    lamp := s.lamps[st]
    tactile := tactileOf s st
    cueLen := if cmd = .sound .nameCue then cue.1 else 0
    cuePos := if cmd = .sound .nameCue then cue.2.1 else 0 }

/-- Clips sent: the send cursor moves past them and the room falls (R145). -/
def clipsSent (st : Station) (n : Nat) (s : State) : State :=
  { s with ann := { s.ann with
    contexts := upd s.ann.contexts st (Option.map (fun (x : Context) => { x with send := x.send + n }))
    room := upd s.ann.room st (Option.map (fun r => r - n)) } }

/-- The end time of a tone test, set at its first test poll (R30). -/
def toneBegun (now : Time) : TestState → TestState
  | .tone t none => .tone t (some (after now Config.toneTimeout))
  | t => t

/-- What the sending of a STATION poll changes (R25, R29, R30, R124, R125, R129, R145). -/
def stationPollSent (st : Station) (q : StationPoll) (s : State) : State :=
  let s := { s with line := { s.line with lastPollTest := s.line.lastPollTest.set st (decide (q.cmd = .toneTest)) } }
  match q.cmd with
  | .toneTest =>
    { s with line := { s.line with
      tests := upd s.line.tests st (toneBegun s.now), confirmed := s.line.confirmed.set st none } }
  | .flush => s
  | .ackTone => { s with line := { s.line with ackPending := s.line.ackPending.set st false } }
  | .clips => clipsSent st q.clips.length s
  | .sound .nameCue => nameCueSent st s
  | .sound _ => s

/-! ### The scan (R18, R19, R22) -/

/-- A poll goes out: its exchange is in progress, and the scan position is past its node. -/
def sendPoll (a : NodeAddr) (p : Poll) (s : State) : State :=
  { s with line := { s.line with exchange := some ⟨a, p⟩, scanPos := some (a.val + 1) } }

/-- Change a node table entry. -/
def setNode (a : NodeAddr) (f : NodeEntry → NodeEntry) (s : State) : State :=
  { s with line := { s.line with nodes := upd s.line.nodes a (Option.map f) } }

/-- The NORMAL poll of a crossing's head (R22): the commanded pair, and the countdown in CLEARANCE. -/
def normalPoll (s : State) (c : Crossing) : Poll :=
  .normal ((s.proofs[c].map ProofRec.commanded).getD Pair.dark)
    (if s.crossings[c].state = .clearance then s.crossings[c].countdown else 0)

/-- The exchange of a station's visit (R19, R29, R31). -/
def visitStation (a : NodeAddr) (st : Station) (s : State) : State :=
  match s.line.tests[st] with
  | .loop t k e =>
    if k = 0 ∧ s.line.lastPollTest[st] = true then
      let q := stationPoll s st
      stationPollSent st q (sendPoll a (.station q) s)
    else
      let s := { s with line := { s.line with
        tests := s.line.tests.set st (.loop t (k + 1) e), lastPollTest := s.line.lastPollTest.set st true } }
      sendPoll a (.test (k + 1)) s
  | .none | .tone _ _ =>
    let q := stationPoll s st
    stationPollSent st q (sendPoll a (.station q) s)

/-- The visit of a head (R19): a LOST one is probed at the 20th round and else skipped. -/
def visitHead (a : NodeAddr) (c : Crossing) (e : NodeEntry) (s : State) : State :=
  if e.lost then
    if Config.probeRounds ≤ e.probeCount + 1 then
      sendPoll a .probe (setNode a (fun (e : NodeEntry) => { e with probeCount := 0 }) s)
    else setNode a (fun (e : NodeEntry) => { e with probeCount := e.probeCount + 1 }) s
  else sendPoll a (normalPoll s c) s

/-- The visit of an address. -/
def visit (a : NodeAddr) (s : State) : State :=
  match s.site.nodeMap[a], s.line.nodes[a] with
  | .head c, some e => visitHead a c e s
  | .station st, some _ => visitStation a st s
  | .none, _ => s
  | .head _, none => s
  | .station _, none => s

/-- The round goes on over the addresses still to visit, up to the next poll; with none left it ends. -/
def scanFrom : List NodeAddr → State → State
  | [], s => { s with line := { s.line with scanPos := none } }
  | a :: as, s =>
    let s := visit a s
    if s.line.exchange.isSome then s else scanFrom as s

/-- Rounds start, one after another, while none of them polls and some wait (R18). -/
def startRounds : Nat → State → State
  | 0, s => s
  | n + 1, s =>
    let s := scanFrom ((List.finRange 64).drop 1) { s with line := { s.line with roundsWaiting := n } }
    if s.line.exchange.isSome then s else startRounds n s

/-- The round goes on from the scan position; at its end the rounds that wait start. -/
def scanOn (s : State) : State :=
  match s.line.scanPos with
  | none => s
  | some p =>
    let s := scanFrom ((List.finRange 64).drop p) s
    if s.line.exchange.isSome then s else startRounds s.line.roundsWaiting s

/-- The 50 ms scan period is due (R18). -/
def scanIsDue (s : State) : Bool := reached s.now s.line.nextRound

/-- A round falls due (R18): it starts, or waits for the one in progress. -/
def roundDue (s : State) : State :=
  if isRunning s && s.site.inForce.isSome then
    if s.line.scanPos.isSome then
      { s with line := { s.line with roundsWaiting := s.line.roundsWaiting + 1 } }
    else startRounds (s.line.roundsWaiting + 1) s
  else s

/-- SCAN_ROUND_DUE (R18). -/
def execScanRoundDue (s : State) : Host.Outcome State Fault Refusal :=
  live s fun s =>
    if scanIsDue s then
      roundDue { s with line := { s.line with nextRound := after s.line.nextRound Config.scanPeriod } }
    else s

/-! ### Counts and node states (R16, R17, R20) -/

/-- A 16-bit saturating count rises by 1. -/
def sat16 (n : Nat) : Nat := min 65535 (n + 1)

/-- A good reply (R17, R20): the second in a run makes a LOST node ACTIVE. -/
def NodeEntry.onGood (e : NodeEntry) : NodeEntry :=
  let e := { e with good := sat16 e.good }
  if e.lost && decide (2 ≤ e.goodRun + 1) then { e with lost := false, failRun := 0, goodRun := 0 }
  else { e with failRun := 0, goodRun := min 3 (e.goodRun + 1) }

/-- A good station reply: the ambient level and the speaker proof are kept with a delivered reply (R27, R126). -/
def NodeEntry.onGoodStation (f : StationFields) (e : NodeEntry) : NodeEntry :=
  if e.onGood.lost then e.onGood else { e.onGood with ambient := f.ambient, speaker := f.speaker }

/-- A failed exchange (R17, R20): the third in a run makes an ACTIVE node LOST. -/
def NodeEntry.onFail (violation : Bool) (e : NodeEntry) : NodeEntry :=
  let e := if violation then { e with violation := sat16 e.violation } else { e with miss := sat16 e.miss }
  if !e.lost && decide (3 ≤ e.failRun + 1) then { e with lost := true, failRun := 0, goodRun := 0, probeCount := 0 }
  else { e with goodRun := 0, failRun := min 3 (e.failRun + 1) }

/-- The NODE record of a change of node state (R21). -/
def nodeRecord (a : NodeAddr) (crossing : Nat) (found : Bool) (e : NodeEntry) (s : State) : State :=
  produce crossing (.node a.val found e.good e.violation e.miss) s

/-! ### A good reply (R24, R27, R31) -/

/-- A good head reply: it is counted; a head found is told to the Proof Monitor; a reply to a NORMAL poll is delivered (R24). -/
def goodHead (a : NodeAddr) (c : Crossing) (poll : Poll) (proven : Pair) (lamps : BitVec 4) (e : NodeEntry) (s : State) :
    State :=
  let e' := e.onGood
  let s := setNode a (fun _ => e') s
  let s := if e.lost && !e'.lost then proofHeadFound c (nodeRecord a (num c) true e' s) else s
  match poll with
  | .normal carried _ => if e.lost then s else proofDeliver c carried proven lamps s
  | .probe | .station _ | .test _ => s

/-- The confirmed sound after a good reply to a STATION poll (R124). -/
def confirmSound (st : Station) (q : StationPoll) (s : State) : State :=
  match q.cmd with
  | .sound w => { s with line := { s.line with confirmed := s.line.confirmed.set st (some w) } }
  | .clips | .flush | .ackTone | .toneTest => s

/-- A good reply to a poll that carried FLUSH clears the pending flush (R25). -/
def answerFlush (st : Station) (q : StationPoll) (s : State) : State :=
  if q.cmd = .flush then { s with line := { s.line with flushPending := s.line.flushPending.set st false } } else s

/-- A LEVEL in a good reply to a poll that carried TONE_TEST ends the tone test that has begun (R30); one that has sent no poll yet is
not ended by the reply to a poll of the test before it. -/
def toneResult (st : Station) (q : StationPoll) (f : StationFields) (s : State) : State :=
  match s.line.tests[st], f.test with
  | .tone _ (some _), .level n => if q.cmd = .toneTest then testDone st .tone n s else s
  | _, _ => s

/-- The delivery of a station reply to the Press Filter, the Engine and the test (R27). Whether the Engine takes the delivery or the
info request of a long press first is free (log 9). -/
def deliverStation (st : Station) (q : StationPoll) (f : StationFields) (s : State) : State :=
  let engine (s : State) : State := engineDeliver st f.played f.free (decide (q.cmd = .flush)) s
  match crossingOf s st with
  | none => s
  | some c =>
    let r := pressDeliver st c f s
    let s :=
      if r.1 then
        (if Config.freeBool r.2.freeCount then engine (infoRequest st c (drawn r.2))
         else infoRequest st c (engine (drawn r.2)))
      else engine r.2
    toneResult st q f s

/-- A good station reply (R20, R21, R27). -/
def goodStation (a : NodeAddr) (st : Station) (q : StationPoll) (f : StationFields) (e : NodeEntry) (s : State) : State :=
  let e' := e.onGoodStation f
  let s := setNode a (fun _ => e') s
  let s := answerFlush st q (confirmSound st q s)
  let s := if e.lost && !e'.lost then
      let s := nodeRecord a (stationCrossingNum s st) true e' s
      match crossingOf s st with
      | some c => callsStationFound c s
      | none => s
    else s
  if e'.lost then s else deliverStation st q f s

/-- The exchange of the 32nd TEST poll ends a loop test (R31). -/
def loopTestEnd (st : Station) (s : State) : State :=
  match s.line.tests[st] with
  | .loop _ sent exact => if Config.loopPolls ≤ sent then testDone st .loop exact s else s
  | .none => s
  | .tone _ _ => s

/-- An exact echo to the last TEST poll of the running test counts (R31); the echo to a poll of the test before it does not. -/
def echoCount (st : Station) (k : Nat) (pattern : List Byte) (s : State) : State :=
  match s.line.tests[st] with
  | .loop t sent exact => if k = sent ∧ pattern = testPattern k then setTest st (.loop t sent (exact + 1)) s else s
  | .none => s
  | .tone _ _ => s

/-- A good echo reply (R31). A station under test is ACTIVE; one found by it is told as any other (R21). -/
def goodEcho (a : NodeAddr) (st : Station) (k : Nat) (pattern : List Byte) (e : NodeEntry) (s : State) : State :=
  let e' := e.onGood
  let s := setNode a (fun _ => e') s
  let s := if e.lost && !e'.lost then
      let s := nodeRecord a (stationCrossingNum s st) true e' s
      match crossingOf s st with
      | some c => callsStationFound c s
      | none => s
    else s
  loopTestEnd st (echoCount st k pattern s)

/-! ### A failed exchange (R20, R21, R28) -/

/-- A station has become LOST (R21, R32, R124). The ANNOUNCE order of its context ends before its test (log 34). -/
def stationBecameLost (a : NodeAddr) (st : Station) (e : NodeEntry) (s : State) : State :=
  let s := nodeRecord a (stationCrossingNum s st) false e s
  let s := pressStationLost st (engineStationLost st s)
  let s := match crossingOf s st with
    | some c => callsStationLost c s
    | none => s
  let s := abortTest st .stationLost s
  { s with line := { s.line with confirmed := s.line.confirmed.set st none } }

/-- A poll carried clips of the Engine. -/
def Poll.carriedClips : Poll → Bool
  | .station q => decide (q.cmd = .clips)
  | .normal _ _ => false
  | .probe => false
  | .test _ => false

/-- A failed exchange with a node (R17, R20, R28). -/
def failNode (x : Exchange) (violation : Bool) (s : State) : State :=
  match s.site.nodeMap[x.addr], s.line.nodes[x.addr] with
  | .head c, some e =>
    let e' := e.onFail violation
    let s := setNode x.addr (fun _ => e') s
    if e'.lost && !e.lost then proofHeadLost c (nodeRecord x.addr (num c) false e' s) else s
  | .station st, some e =>
    let e' := e.onFail violation
    let s := engineFailed st x.poll.carriedClips (setNode x.addr (fun _ => e') s)
    let s := if e'.lost && !e.lost then stationBecameLost x.addr st e' s else s
    match x.poll with
    | .test _ => loopTestEnd st s
    | .normal _ _ => s
    | .probe => s
    | .station _ => s
  | .none, _ => s
  | .head _, none => s
  | .station _, none => s

/-- A good reply of a node (R16, R24, R27, R31). -/
def goodNode (x : Exchange) (r : Reply) (s : State) : State :=
  match s.site.nodeMap[x.addr], s.line.nodes[x.addr], x.poll, r with
  | .head c, some e, p, .head proven lamps => goodHead x.addr c p proven lamps e s
  | .station st, some e, .station q, .station f => goodStation x.addr st q f e s
  | .station st, some e, .test k, .echo pattern => goodEcho x.addr st k pattern e s
  | _, _, _, _ => s

/-! ### The ends of an exchange (R15, R16) -/

/-- The exchange is over; the scan goes on. -/
def exchangeOver (f : Exchange → State → State) (s : State) : State :=
  match s.line.exchange with
  | none => s
  | some x => scanOn (f x { s with line := { s.line with exchange := none } })

/-- The exchange failed, as a violation or a miss. -/
def exchangeFailed (violation : Bool) (s : State) : State :=
  exchangeOver (fun x s => failNode x violation (streetDoubt x s)) s

/-- A reply has ended, of whatever kind it was meant to be: it is classed by the poll it answers (R16). With no exchange in progress
its bytes are stray (R15). -/
def replyEnded (bytes : List Byte) (s : State) : State :=
  match s.line.exchange with
  | none => s
  | some x =>
    match classify x bytes with
    | some r => exchangeOver (fun x s => goodNode x r (streetAnswer x r s)) s
    | none => exchangeFailed true s

/-- HEAD_REPLY (R24). -/
def execHeadReply (bytes : List Byte) (s : State) : Host.Outcome State Fault Refusal := live s (replyEnded bytes)

/-- STATION_REPLY (R27). -/
def execStationReply (bytes : List Byte) (s : State) : Host.Outcome State Fault Refusal := live s (replyEnded bytes)

/-- ECHO_REPLY (R31). -/
def execEchoReply (bytes : List Byte) (s : State) : Host.Outcome State Fault Refusal := live s (replyEnded bytes)

/-- REPLY_WINDOW_EXPIRY (R16): a miss. -/
def execReplyWindowExpiry (s : State) : Host.Outcome State Fault Refusal := live s (exchangeFailed false)

/-- REPLY_CUT_OFF (R15): a violation. -/
def execReplyCutOff (s : State) : Host.Outcome State Fault Refusal := live s (exchangeFailed true)

/-- STRAY_LINE_BYTES (R15): discarded, uncounted. -/
def execStrayLineBytes (_bytes : List Byte) (s : State) : Host.Outcome State Fault Refusal := live s id

end Sys2Proof.Machine
end

