-- ==== Sys2Proof/Machine/Plan.lean ====
section
/-! DEFINITION. The Plan Unit (R87-R95): windows, the cycle clock, adoption, and the LOAD_PLAN order. -/

namespace Sys2Proof.Machine

/-- A window is open at a cycle position (R90). -/
def windowOpenAt (cycle start width pos : Nat) : Bool := decide ((pos + cycle - start) % cycle < width)

/-- A crossing's window indication under a plan at a position. -/
def Plan.openAt (p : Plan) (c : Crossing) (pos : Nat) : Bool := windowOpenAt p.cycle p.start[c] p.width[c] pos

/-- The plan mask of a crossing: 0 while its window is open, else the closed mask (R87). -/
def Plan.maskAt (p : Plan) (c : Crossing) (pos : Nat) : Nat := if p.openAt c pos then 0 else p.closedMask

/-- The window of one crossing is computed; its sequencer is told of a change (R90). -/
def computeWindow (p : Plan) (c : Crossing) (s : State) : State :=
  let o := p.openAt c s.plan.position
  let m := p.maskAt c s.plan.position
  let same := decide (s.plan.windowOpen[c] = o ∧ s.plan.mask[c] = m)
  let s := { s with plan := { s.plan with
    windowOpen := s.plan.windowOpen.set c o, mask := s.plan.mask.set c m } }
  if same then s else tellPlanMask c m s

/-- Every crossing's window is computed at the position now held (R89, R90). -/
def computeWindows (p : Plan) (s : State) : State := each allCrossings (computeWindow p) s

/-- A plan becomes the plan in force at position 0, with its next tick, its PLAN record and its order's result (R91, R92). -/
def adopt (p : Plan) (t : Ticket) (nextTick : Time) (s : State) : State :=
  let s := { s with plan := { s.plan with
    inForce := some p, waiting := none, position := 0, nextTick := some nextTick } }
  let s := produce 0 (.plan p.id false) (computeWindows p s)
  endOrder t (Result.done p.id.toNat) s

/-- A plan waiting is superseded (R93). -/
def supersedePlan (s : State) : State :=
  match s.plan.waiting with
  | some (p, t) =>
    endOrder t (Result.refused .superseded)
      (produce 0 (.plan p.id true) { s with plan := { s.plan with waiting := none } })
  | none => s

/-- The Plan Unit takes a LOAD_PLAN order (R88, R91-R93). -/
def loadPlanOrder (t : Ticket) (p : Plan) (s : State) : State :=
  match s.plan.inForce with
  | none => adopt p t (after s.now 1000) s
  | some _ =>
    let s := supersedePlan s
    { s with plan := { s.plan with waiting := some (p, t) } }

/-- LOAD_PLAN (R88). -/
def execLoadPlan (slot : SlotIx) (s : State) : Host.Outcome State Fault Refusal :=
  live s <| taking slot .loadPlan fun t b s =>
    match b with
    | .loadPlan p => loadPlanOrder t p s
    | .loadSite _ | .storeSite | .setMode _ _ | .remoteCall _ _ _ | .cancelCalls _ _ | .announce _ _ _
    | .testStation _ _ | .corridorHold _ => s

/-- The next tick has been reached. -/
def tickIsDue (s : State) : Bool := due s.now s.plan.nextTick

/-- One tick of the cycle, at the tick time t (R89, R92). -/
def cycleTick (p : Plan) (t : Time) (s : State) : State :=
  if p.cycle ≤ s.plan.position + 1 then
    match s.plan.waiting with
    | some (q, k) => adopt q k (after t 1000) s
    | none => computeWindows p { s with plan := { s.plan with position := 0, nextTick := some (after t 1000) } }
  else
    computeWindows p { s with plan := { s.plan with
      position := s.plan.position + 1, nextTick := some (after t 1000) } }

/-- CYCLE_TICK (R89). -/
def execCycleTick (s : State) : Host.Outcome State Fault Refusal :=
  live s fun s =>
    if tickIsDue s then
      match s.plan.inForce, s.plan.nextTick with
      | some p, some t => cycleTick p t s
      | _, _ => s
    else s

end Sys2Proof.Machine
end

