-- ==== Sys2Proof/Machine/Load.lean ====
section
/-! DEFINITION. LOAD_SITE (R10-R12), the swap of a new site (R13, R14, R33, R34, R50, R121, R124, R137, R158), and the
configuration memory: STORE_SITE and its accesses (R180, R181). -/

namespace Sys2Proof.Machine

/-! ### The swap (R13) -/

/-- The Line Controller at a swap (R18, R33, R124). Rounds that wait are dropped with the round that ends (log 19), no station's last
poll is taken to have carried a test (log 43), and whether the node heard the poll of the exchange abandoned here is free (log 23,
`streetAbandon`). -/
def Line.swapped (l : Line) (m : Vector NodeKind 64) : Line :=
  { l with
    nodes := nodeTableOf m, scanPos := none, roundsWaiting := 0, exchange := none,
    tests := Vector.replicate 32 .none, lastPollTest := Vector.replicate 32 false,
    flushPending := Vector.replicate 32 false, ackPending := Vector.replicate 32 false,
    confirmed := Vector.replicate 32 none }

/-- The proof records of a site (R121). -/
def proofsOf (site : Site) : Vector (Option ProofRec) 8 :=
  Vector.ofFn (fun (c : Crossing) => site.crossings[c].map ProofRec.fresh)

/-- The swap: a site becomes the site in force, and every table that follows from it is built anew (R13). -/
def swapSite (site : Site) (s : State) : State :=
  let s := streetAbandon s
  { s with
    site := s.site.withSite site
    line := s.line.swapped site.nodeMap
    press := Vector.replicate 32 PressState.cleared
    lamps := Vector.replicate 32 false
    proofs := proofsOf site
    cues := CueAllocator.reset
    ann := { s.ann with baseline := Vector.replicate 32 none, room := Vector.replicate 32 none } }

/-! ### LOAD_SITE (R10-R12) -/

/-- The Site Table takes a LOAD_SITE order (R10). -/
def loadSiteOrder (t : Ticket) (addr : Nat) (s : State) : State :=
  if allDark s && s.config.store.isNone && s.site.load.isNone then
    { s with site := { s.site with load := some ⟨t, addr, []⟩ } }
  else endOrder t (Result.refused .busy) s

/-- LOAD_SITE (R10). -/
def execLoadSite (slot : SlotIx) (s : State) : Host.Outcome State Fault Refusal :=
  live s <| taking slot .loadSite fun t b s =>
    match b with
    | .loadSite addr => loadSiteOrder t addr s
    | .storeSite | .loadPlan _ | .setMode _ _ | .remoteCall _ _ _ | .cancelCalls _ _ | .announce _ _ _
    | .testStation _ _ | .corridorHold _ => s

/-- The load ends without a swap, with a result. -/
def loadRefused (t : Ticket) (r : Result) (s : State) : State :=
  endOrder t r { s with site := { s.site with load := none } }

/-- The last word is read: validation, and the swap (R7, R11, R13). -/
def loadEnd (t : Ticket) (body : List Word) (s : State) : State :=
  match validate body s.site.phraseArea true with
  | some (kind, item) => loadRefused t (Result.refused .badParam (kind + 16 * item)) s
  | none =>
    let site := siteOf body
    if allDark s then
      endOrder t (Result.done (site.crossingTotal + 16 * site.stationTotal)) (swapSite site s)
    else loadRefused t (Result.refused .busy) s

/-- IMAGE_WORD_READ_DONE (R11). -/
def execImageWordReadDone (ans : ReadEnd) (s : State) : Host.Outcome State Fault Refusal :=
  live s fun s =>
    match s.site.load with
    | none => s
    | some l =>
      match ans with
      | .busError => loadRefused l.ticket (Result.refused .memfault l.staging.length) s
      | .word w =>
        let body := l.staging ++ [w]
        if body.length < Config.bodyWords then
          { s with site := { s.site with load := some { l with staging := body } } }
        else loadEnd l.ticket body s

/-! ### STORE_SITE (R180, R181) -/

/-- The Configuration Memory Controller takes a STORE_SITE order (R180). -/
def storeSiteOrder (t : Ticket) (wpHigh : Bool) (s : State) : State :=
  let s := { s with wp := wpHigh }
  if !wpHigh then endOrder t (Result.refused .writeProtected) s
  else if s.config.store.isSome || s.site.load.isSome then endOrder t (Result.refused .busy) s
  else match s.site.inForce with
    | none => endOrder t (Result.refused .notReady) s
    | some site => { s with config := { s.config with store := some ⟨t, imageOf site, 0, none⟩ } }

/-- STORE_SITE (R180). -/
def execStoreSite (slot : SlotIx) (wpHigh : Bool) (s : State) : Host.Outcome State Fault Refusal :=
  live s <| taking slot .storeSite fun t b s =>
    match b with
    | .storeSite => storeSiteOrder t wpHigh s
    | .loadSite _ | .loadPlan _ | .setMode _ _ | .remoteCall _ _ _ | .cancelCalls _ _ | .announce _ _ _
    | .testStation _ _ | .corridorHold _ => s

/-- The writes of a store: word 0 as 0, then words 1 to 146, last word 0 (R180). -/
def storeWrites : Nat := Config.imageWords + 1

/-- Position and value of the n-th write of a store. -/
def storeWrite (image : List Word) (n : Nat) : Nat × Word :=
  if n = 0 then (0, 0)
  else if n < Config.imageWords then (n, image.getD n 0)
  else (0, image.getD 0 0)

/-- The store ends: the presence and the result, in one event (R180). -/
def storeEnd (t : Ticket) (p : Presence) (r : Result) (s : State) : State :=
  endOrder t r { s with config := { s.config with presence := p, store := none } }

/-- The first write of a store that finds WP low is refused, and every write after it (R180). -/
def Store.seesWp (x : Store) (wpHigh : Bool) (word : Nat) : Store :=
  { x with refusedAt := if wpHigh then x.refusedAt else x.refusedAt.or (some word) }

/-- STORE_WRITE_DONE (R180, R181): one write; the memory refuses it once WP has gone low in the store, and may stop answering. The word
at which it stops answering keeps what it held (log 44). -/
def execStoreWriteDone (wpHigh answers : Bool) (s : State) : Host.Outcome State Fault Refusal :=
  live s fun s =>
    let s := { s with wp := wpHigh }
    match s.config.store with
    | none => s
    | some x =>
      if x.done < storeWrites then
        let w := storeWrite x.image x.done
        let x := x.seesWp wpHigh w.1
        if answers then
          { s with config := { s.config with
            stored := if x.refusedAt.isNone then s.config.stored.set w.1 w.2 else s.config.stored
            store := some { x with done := x.done + 1 } } }
        else storeEnd x.ticket .invalid (Result.refused .memfault w.1) s
      else s

/-- The first place where the words read back differ from the image: none when they are the same. -/
def firstDifference (image back : List Word) : Option Nat :=
  (List.range Config.imageWords).find? (fun k => decide (image.getD k 0 ≠ back.getD k 0))

/-- The end of the read-back of a store (R180). A store in which WP went low ends MEMFAULT even where the memory held the very words
whose writes it refused; its detail is then the word of the first of them (log 26). -/
def readBack (x : Store) (back : List Word) (s : State) : State :=
  match (firstDifference x.image back).or x.refusedAt with
  | none => storeEnd x.ticket .valid (Result.done 0) s
  | some k => storeEnd x.ticket .invalid (Result.refused .memfault k) s

/-- STORE_READBACK_DONE (R180). -/
def execStoreReadbackDone (ans : MemoryAnswer) (s : State) : Host.Outcome State Fault Refusal :=
  live s fun s =>
    match s.config.store with
    | none => s
    | some x =>
      if x.done < storeWrites then s
      else match ans with
        | .silentAt k =>
          -- a word before the silent one that differs is the first to fail
          match (List.range k).find? (fun i => decide (x.image.getD i 0 ≠ s.config.stored.getD i 0)) with
          | some i => storeEnd x.ticket .invalid (Result.refused .memfault i) s
          | none => storeEnd x.ticket .invalid (Result.refused .memfault k) s
        | .stored => readBack x s.config.stored s
        | .other ws => readBack x ws { s with config := { s.config with stored := ws } }

end Sys2Proof.Machine
end

