-- ==== Sys2Proof/Machine/Reset.lean ====
section
/-! DEFINITION. Reset, LOADING and its end (R14, R100, R179, R181). -/

namespace Sys2Proof.Machine

/-- What a power-on or external reset makes of the state: every block at its reset value, with HOLD_IN at a level. The contents of
the configuration memory and what lies outside the part stay; the watches of the stations go on over the new count, and whether a
station heard the poll of an exchange that the reset abandons is free (log 23). -/
def resetState (low : Bool) (s : State) : State :=
  let s := streetAbandon s
  { State.reset with
    hold := HoldLogic.reset low
    wp := s.wp
    config := { State.reset.config with stored := s.config.stored }
    street :=
      { heads := Vector.replicate 64 HeadNode.fallback
        stations := Vector.ofFn (fun (a : NodeAddr) =>
          { s.street.stations[a] with watch := s.street.stations[a].watch.map (fun t => t - s.now) }) }
    mem := s.mem
    freeCount := s.freeCount
    pending := s.pending }

/-- POWER_ON_OR_EXTERNAL_RESET (R179): the part leaves reset and enters LOADING; HOLD_IN is taken at its level (R100). -/
def execPowerOnOrExternalReset (holdInLow : Bool) (s : State) : Host.Outcome State Fault Refusal :=
  .next (resetState holdInLow s)

/-- HELD_IN_RESET (R179): the part is held in reset, every activity stopped where it stands (log 17). -/
def execHeldInReset (s : State) : Host.Outcome State Fault Refusal :=
  .next { resetState s.hold.rawActive s with held := true }

/-- The words the configuration memory answers a read with: none where it does not answer. -/
def answerWords (s : State) : MemoryAnswer → Option (List Word)
  | .silentAt _ => none
  | .stored => some s.config.stored
  | .other ws => some ws

/-- The presence state and the body of an image read in LOADING, by the first row of R179 that applies. -/
def judgeImage : Option (List Word) → Presence × List Word
  | none => (.absent, [])
  | some ws =>
    let len := ws.getD 1 0
    let body := slice ws 2 Config.bodyWords
    if ws.getD 0 0 ≠ Config.imageSignature then (.absent, [])
    else if len.toNat ≠ Config.bodyWords ∨ checksum len body ≠ bitsAt (ws.getD (Config.imageWords - 1) 0) 0 16 then
      (.invalid, [])
    else if (validate body none false).isSome then (.invalid, [])
    else (.valid, body)

/-- A crossing whose auto-start flag is set enters STARTUP in RUN_FREE (R61, R179). -/
def autoStart (c : Crossing) (s : State) : State :=
  if configured s c && (crossingRec s c).autoStart then enterStartup c .runFree .order s else s

/-- LOADING ends (R179): the presence is set, SAFE_OUT closes, the part is RUNNING; a valid body comes in force and its auto-start
crossings start; a stored START then acts (R160). -/
def loadingEnds (p : Presence) (body : List Word) (s : State) : State :=
  let s := { s with part := .running, safeOut := true, config := { s.config with presence := p } }
  let s := if p = .valid then each allCrossings autoStart (swapSite (siteOf body) s) else s
  if s.regs.start then startSet s else s

/-- CONFIG_IMAGE_READ_DONE (R179). -/
def execConfigImageReadDone (ans : MemoryAnswer) (s : State) : Host.Outcome State Fault Refusal :=
  live s fun s =>
    if s.part = .loading then
      let j := judgeImage (answerWords s ans)
      let s := match ans with
        | .other ws => { s with config := { s.config with stored := ws } }
        | .silentAt _ => s
        | .stored => s
      loadingEnds j.1 j.2 s
    else s

end Sys2Proof.Machine
end

