-- ==== Sys2Proof/Machine/Clock.lean ====
section
/-! DEFINITION. The reference count and the events that fall due on it (R58, R177; log 2). -/

namespace Sys2Proof.Machine

/-- An event, if it is due. -/
def whenDue (b : Bool) (i : Instr) : List Instr := if b then [i] else []

/-- The events of one crossing that are due. -/
def crossingEvents (s : State) (c : Crossing) : List Instr :=
  (s.calls[c].filter (fun e => due s.now e.expiry)).map (fun e => .callExpiry c e.source)
    ++ whenDue (timerIsDue s c .startup) (.startupExpiry c)
    ++ whenDue (minGreenIsDue s c) (.minGreenExpiry c)
    ++ whenDue (timerIsDue s c .vehAmber) (.amberExpiry c)
    ++ whenDue (timerIsDue s c .redBeforeWalk) (.redBeforeWalkExpiry c)
    ++ whenDue (timerIsDue s c .walk) (.walkEndExpiry c)
    ++ whenDue (secondIsDue s c) (.countdownSecond c)
    ++ whenDue (timerIsDue s c .clearance) (.clearanceExpiry c)
    ++ whenDue (timerIsDue s c .redAfterWalk) (.redAfterWalkExpiry c)

/-- Every event that is due at the count now held. -/
def dueEvents (s : State) : List Instr :=
  whenDue (lookIsDue s) .chainLookDue
    ++ whenDue (scanIsDue s) .scanRoundDue
    ++ (allStations.filter (toneTimeoutIsDue s)).map .toneTestTimeout
    ++ allCrossings.flatMap (crossingEvents s)
    ++ whenDue (tickIsDue s) .cycleTick
    ++ whenDue (qualifyIsDue s) .holdInQualified
    ++ whenDue (holdTimerIsDue s) .holdTimerExpiry
    ++ whenDue (!s.cues.queue.isEmpty) .cueGrant
    ++ whenDue (stallRereadIsDue s) .stallRereadDue
    ++ whenDue (flushTimerIsDue s) .flushTimerExpiry
    ++ whenDue (statusIsDue s) .statusPeriodDue

/-- One millisecond passes: the count rises and wraps, the nodes' watches run, and what then is due waits in a free order (log 2). Held
in reset, nothing passes (log 17). -/
def tick (s : State) : State :=
  if s.held then s
  else
    let s := streetTick { s with now := s.now + 1 }
    let es := dueEvents s
    { s with pending := freeOrder (fun a b => decide (a = b)) es.length s.freeCount es, freeCount := s.freeCount + es.length }

end Sys2Proof.Machine
end

