-- ==== Sys2Proof/Machine/Registers.lean ====
section
/-! DEFINITION. Writes to the host registers (R177, R178). -/

namespace Sys2Proof.Machine

/-- A write to CONTROL: START and the enables are stored; LINK_RESTART acts with the new START and makes no START event, and
does nothing while LOADING; else a change of START outside LOADING is a START event (R160, R177). -/
def controlWrite (start restart : Bool) (enables : BitVec 5) (s : State) : State :=
  let old := s.regs.start
  let s := { s with regs := { s.regs with start := start, enables := enables } }
  if s.part = .loading then s
  else if restart then linkRestart s
  else if old = start then s
  else if start then startSet s
  else startCleared s

/-- A write to NUDGE (R161, R171). -/
def nudgeWrite (s : State) : State := journalReread (lookNow s)

/-- START_SET (R160). -/
def execStartSet (enables : BitVec 5) (s : State) : Host.Outcome State Fault Refusal :=
  live s (controlWrite true false enables)

/-- START_CLEARED (R166). -/
def execStartCleared (enables : BitVec 5) (s : State) : Host.Outcome State Fault Refusal :=
  live s (controlWrite false false enables)

/-- LINK_RESTART (R167). -/
def execLinkRestart (start : Bool) (enables : BitVec 5) (s : State) : Host.Outcome State Fault Refusal :=
  live s (controlWrite start true enables)

/-- ATTENTION_ENABLES_WRITE (R178): START as it was, so no START event. -/
def execAttentionEnablesWrite (enables : BitVec 5) (s : State) : Host.Outcome State Fault Refusal :=
  live s fun s => { s with regs := { s.regs with enables := enables } }

/-- NUDGE (R161, R171). The value is not looked at. -/
def execNudge (_value : Word) (s : State) : Host.Outcome State Fault Refusal := live s nudgeWrite

/-- ATTENTION_CLEAR (R178). -/
def execAttentionClear (value : Word) (s : State) : Host.Outcome State Fault Refusal :=
  live s (clearAttention value)

/-- The write of a word to a register (R177). -/
def registerWrite (r : Reg) (w : Word) (s : State) : State :=
  match r with
  | .anchor => { s with regs := { s.regs with anchor := w } }
  | .control => controlWrite (w.getLsbD 0) (w.getLsbD 1) (w.extractLsb' 8 5) s
  | .nudge => nudgeWrite s
  | .partState => s
  | .attention => clearAttention w s
  | .clock => s

/-- REGISTER_WRITE (R177). -/
def execRegisterWrite (r : Reg) (w : Word) (s : State) : Host.Outcome State Fault Refusal :=
  live s (registerWrite r w)

end Sys2Proof.Machine
end

