-- ==== Sys2Proof/Machine/Dispatch.lean ====
section
/-! DEFINITION. exec: one arm per command, each one direct call of its meaning. -/

namespace Sys2Proof.Machine

/-- The effect of a command on everything but the queue. -/
def exec (i : Instr) (s : State) : Host.Outcome State Fault Refusal :=
  match i with
  | .powerOnOrExternalReset holdInLow => Sys2Proof.Machine.execPowerOnOrExternalReset holdInLow s
  | .configImageReadDone answer => Sys2Proof.Machine.execConfigImageReadDone answer s
  | .startSet enables => Sys2Proof.Machine.execStartSet enables s
  | .startCleared enables => Sys2Proof.Machine.execStartCleared enables s
  | .linkRestart start enables => Sys2Proof.Machine.execLinkRestart start enables s
  | .attentionEnablesWrite enables => Sys2Proof.Machine.execAttentionEnablesWrite enables s
  | .nudge value => Sys2Proof.Machine.execNudge value s
  | .attentionClear value => Sys2Proof.Machine.execAttentionClear value s
  | .registerWrite reg value => Sys2Proof.Machine.execRegisterWrite reg value s
  | .anchorReadDone answer => Sys2Proof.Machine.execAnchorReadDone answer s
  | .chainLookDue => Sys2Proof.Machine.execChainLookDue s
  | .linkWordReadDone answer => Sys2Proof.Machine.execLinkWordReadDone answer s
  | .orderHeaderReadDone answer => Sys2Proof.Machine.execOrderHeaderReadDone answer s
  | .orderParamsReadDone answer => Sys2Proof.Machine.execOrderParamsReadDone answer s
  | .orderTakenWriteDone answer => Sys2Proof.Machine.execOrderTakenWriteDone answer s
  | .loadSite slot => Sys2Proof.Machine.execLoadSite slot s
  | .storeSite slot wpHigh => Sys2Proof.Machine.execStoreSite slot wpHigh s
  | .loadPlan slot => Sys2Proof.Machine.execLoadPlan slot s
  | .setMode slot => Sys2Proof.Machine.execSetMode slot s
  | .remoteCall slot => Sys2Proof.Machine.execRemoteCall slot s
  | .cancelCalls slot => Sys2Proof.Machine.execCancelCalls slot s
  | .announce slot => Sys2Proof.Machine.execAnnounce slot s
  | .testStation slot => Sys2Proof.Machine.execTestStation slot s
  | .corridorHold slot => Sys2Proof.Machine.execCorridorHold slot s
  | .resultDetailWriteDone answer => Sys2Proof.Machine.execResultDetailWriteDone answer s
  | .resultStateWriteDone answer => Sys2Proof.Machine.execResultStateWriteDone answer s
  | .imageWordReadDone answer => Sys2Proof.Machine.execImageWordReadDone answer s
  | .storeWriteDone wpHigh answers => Sys2Proof.Machine.execStoreWriteDone wpHigh answers s
  | .storeReadbackDone answer => Sys2Proof.Machine.execStoreReadbackDone answer s
  | .scanRoundDue => Sys2Proof.Machine.execScanRoundDue s
  | .headReply bytes => Sys2Proof.Machine.execHeadReply bytes s
  | .stationReply bytes => Sys2Proof.Machine.execStationReply bytes s
  | .echoReply bytes => Sys2Proof.Machine.execEchoReply bytes s
  | .replyWindowExpiry => Sys2Proof.Machine.execReplyWindowExpiry s
  | .replyCutOff => Sys2Proof.Machine.execReplyCutOff s
  | .strayLineBytes bytes => Sys2Proof.Machine.execStrayLineBytes bytes s
  | .toneTestTimeout st => Sys2Proof.Machine.execToneTestTimeout st s
  | .callExpiry c src => Sys2Proof.Machine.execCallExpiry c src s
  | .startupExpiry c => Sys2Proof.Machine.execStartupExpiry c s
  | .minGreenExpiry c => Sys2Proof.Machine.execMinGreenExpiry c s
  | .amberExpiry c => Sys2Proof.Machine.execAmberExpiry c s
  | .redBeforeWalkExpiry c => Sys2Proof.Machine.execRedBeforeWalkExpiry c s
  | .walkEndExpiry c => Sys2Proof.Machine.execWalkEndExpiry c s
  | .countdownSecond c => Sys2Proof.Machine.execCountdownSecond c s
  | .clearanceExpiry c => Sys2Proof.Machine.execClearanceExpiry c s
  | .redAfterWalkExpiry c => Sys2Proof.Machine.execRedAfterWalkExpiry c s
  | .cycleTick => Sys2Proof.Machine.execCycleTick s
  | .holdInEdge low => Sys2Proof.Machine.execHoldInEdge low s
  | .holdInQualified => Sys2Proof.Machine.execHoldInQualified s
  | .holdTimerExpiry => Sys2Proof.Machine.execHoldTimerExpiry s
  | .cueGrant => Sys2Proof.Machine.execCueGrant s
  | .phraseReadDone n answer => Sys2Proof.Machine.execPhraseReadDone n answer s
  | .descriptorReadDone answer => Sys2Proof.Machine.execDescriptorReadDone answer s
  | .stallRereadDue => Sys2Proof.Machine.execStallRereadDue s
  | .recordWriteDone answer => Sys2Proof.Machine.execRecordWriteDone answer s
  | .flushTimerExpiry => Sys2Proof.Machine.execFlushTimerExpiry s
  | .bufferCloseWriteDone answer => Sys2Proof.Machine.execBufferCloseWriteDone answer s
  | .statusPeriodDue => Sys2Proof.Machine.execStatusPeriodDue s
  | .statusWordWriteDone answer => Sys2Proof.Machine.execStatusWordWriteDone answer s
  | .heldInReset => Sys2Proof.Machine.execHeldInReset s

end Sys2Proof.Machine
end

