-- ==== Sys2Proof/Safety.lean ====
section
/-! DEFINITION. What it means for a state of the part to be sound: the invariants the obligations speak of. -/

namespace Sys2Proof.Machine

/-- The written bytes of shared memory are in canonical form (log 1). -/
def MemoryCanonical (s : State) : Prop := Memory.wf s.mem = true

/-- Nothing of the part's is under way at the crossings, on the chain or on the line. -/
def Quiet (s : State) : Prop :=
  (∀ c : Crossing, s.crossings[c].state = .dark) ∧ s.orders.handed = [] ∧ s.orders.access = .idle ∧
  s.orders.link = .stopped ∧ s.line.exchange = none ∧ s.site.load = none

/-- R59: the pair commanded at each configured crossing is the pair of its state, so that no crossing is commanded pedestrian WALK or
FLASH_DONT_WALK with vehicle GREEN or AMBER, nor does the NORMAL poll under way carry such a pair; in LOADING nothing is under way,
so that the swap of the stored site finds every crossing DARK (R13, R179). -/
def CommandedFollowsState (s : State) : Prop :=
  (∀ c : Crossing, ∀ p ∈ s.proofs[c], p.commanded = s.crossings[c].state.aspects) ∧
  (∀ x ∈ s.line.exchange, ∀ p n, x.poll = .normal p n → p.conflict = false) ∧
  (s.part = .loading → Quiet s)

/-- R119, R120: SAFE_OUT is closed in RUNNING and open in LOADING and in LOCKOUT; and what stands while the part is in LOCKOUT. -/
def LockoutHolds (s : State) : Prop :=
  (s.safeOut = true ↔ s.part = .running) ∧
  (s.part = .lockout →
    s.line.exchange = none ∧ (∀ h ∈ s.orders.handed, h.body.kind = .announce) ∧ s.site.load = none ∧
    (∀ c : Crossing, s.crossings[c].state = .dark ∧ s.crossings[c].mode = .dark ∧ s.calls[c] = []) ∧
    (∀ st : Station, s.ann.contexts[st] = none ∧ s.line.tests[st] = .none))

/-- R4, R5, R8, R9, R13: the node map, the hearing table, the name phrase store and the usable marks are those of the site in force. -/
def SiteTablesFollow (s : State) : Prop :=
  (∀ a : NodeAddr, s.site.nodeMap[a] = match s.site.inForce with | some site => site.kindOf a.val | none => .none) ∧
  (∀ c : Crossing,
    s.site.hearing[c] = (match s.site.inForce with | some site => site.hears c | none => []) ∧
    s.site.names[c] = (match s.site.inForce with
      | some site => (site.crossings[c].map CrossingRec.name).getD [] | none => [])) ∧
  s.site.usable = usableMarks s.site.inForce s.site.phraseArea

/-- R9, R130, R132, R134: hearing is symmetric and no crossing hears itself; a crossing has a cue only in WALK; the request queue holds
the AWAITING crossings, each once; and hearing neighbours never hold one pattern. -/
def CuesSound (s : State) : Prop :=
  (∀ a b : Crossing, b ∈ s.site.hearing[a] → a ∈ s.site.hearing[b] ∧ a ≠ b) ∧
  (∀ c : Crossing, s.cues.cue[c] ≠ .none → s.crossings[c].state = .walk) ∧
  (∀ c : Crossing, c ∈ s.cues.queue ↔ s.cues.cue[c] = .awaiting) ∧
  s.cues.queue.Nodup ∧
  (∀ a b : Crossing, b ∈ s.site.hearing[a] → ∀ p, s.cues.cue[a] = .pattern p → s.cues.cue[b] ≠ .pattern p)

/-- R170: the journal FIFO holds at most 128 records, and the lost count is a 32-bit count. -/
def JournalBounded (s : State) : Prop := s.journal.fifo.length ≤ 128 ∧ s.journal.lost ≤ 4294967295

/-- R140: in every context the confirmed cursor is at most the send cursor and the send cursor at most the fetch cursor, and at most
16 places are filled. -/
def CursorsInOrder (s : State) : Prop :=
  ∀ st : Station, ∀ x ∈ s.ann.contexts[st],
    x.confirmed ≤ x.send ∧ x.send ≤ x.confirmed + x.buffer.length ∧ x.buffer.length ≤ 16

/-- R175, R176: a write of the status table is at one of its 144 words, and the generation count is odd exactly while one is in progress
before its last word. -/
def GenerationOddWhileWriting (s : State) : Prop :=
  match s.status.write with
  | none => s.status.generation.toNat % 2 = 0
  | some (_, n) => n ≤ 143 ∧ s.status.generation.toNat % 2 = if n < 143 then 1 else 0

/-- R164, R165: the slots that wait for their result to be written are the HELD slots, each once. -/
def HeldSlotsQueued (s : State) : Prop :=
  s.orders.heldQueue.Nodup ∧
  ∀ i : SlotIx, i ∈ s.orders.heldQueue ↔ ∃ h r, s.orders.slots[i].state = .finished h r

/-- R160, R166, R167: in FOLLOWING no LINK_RESTART waits, no anchor is being read, and where no access is under way the link has not to
stop; and no LINK_RESTART waits for an anchor read. -/
def LinkInOrder (s : State) : Prop :=
  (s.orders.link = .following → s.orders.restarting = false ∧ (s.orders.access = .idle → s.orders.stopping = false) ∧
    ∀ a restart joins, s.orders.access ≠ .anchor a restart joins) ∧
  (∀ a restart joins, s.orders.access = .anchor a restart joins → s.orders.restarting = false)

/-! ### The words the obligations share -/

/-- Every byte outside the n bytes from address a reads as before. -/
def SameOutside (s t : State) (a n : Nat) : Prop :=
  ∀ b, b < a ∨ a + n ≤ b → Memory.read t.mem b = Memory.read s.mem b

/-- Every byte of shared memory reads as before. -/
def SameMemory (s t : State) : Prop := ∀ b, Memory.read t.mem b = Memory.read s.mem b

/-- The four bytes from address a read as the word w, little-endian. -/
def HoldsWord (t : State) (a : Nat) (w : Word) : Prop := Memory.readWord t.mem a = some w

/-- The journal after an event whose one record is that of a crossing number (0: none) (R169, R170, R172). -/
def recorded (s : State) (crossing : Nat) (body : RecordBody) : JournalWriter :=
  (s.journal.enter ⟨crossing, s.now, body⟩).pump s.now

/-- A crossing is in a state, with that state's pair commanded at its head, if it has one (R59). -/
def Shows (t : State) (c : Crossing) (st : CrossingState) (pair : Pair) : Prop :=
  t.crossings[c].state = st ∧ ∀ p ∈ t.proofs[c], p.commanded = pair

/-- A proof record p after its crossing's entries to states other than FLASH: q. A pair that differs is recorded and, unless WAIVED, is to
be proven anew with an allowance of 2, and the flash check stands only under the flashing pair; one that is the same changes nothing
(R108). -/
def Rechecked (p q : ProofRec) : Prop :=
  q.headAddr = p.headAddr ∧ q.proven = p.proven ∧ q.lamps = p.lamps ∧
  (q.commanded = p.commanded → q.state = p.state ∧ q.allowance = p.allowance ∧ q.flashCheck = p.flashCheck) ∧
  (q.commanded ≠ p.commanded →
    (p.state = .waived → q.state = .waived ∧ q.allowance = p.allowance) ∧
    (p.state ≠ .waived → q.state = .checking ∧ q.allowance = 2) ∧
    (q.flashCheck = true ↔ p.flashCheck = true ∧ q.commanded = ⟨.flashAmber, .dark⟩))

/-- A crossing has entered a state other than FLASH: it shows it, and its proof record is that of R108. -/
def Enters (s t : State) (c : Crossing) (st : CrossingState) (pair : Pair) : Prop :=
  Shows t c st pair ∧ ∀ p, s.proofs[c] = some p → ∃ q, t.proofs[c] = some q ∧ Rechecked p q

/-- The proof record of a crossing after its entry to FLASH (R108): WAIVED with no flash check where it was WAIVED, else CHECKING with an
allowance of 2; the flash check is set, but where a pending STOP has gone on to a pair other than the flashing one. -/
def FlashProof (t : State) (c : Crossing) (waived : Prop) : Prop :=
  ∃ q, t.proofs[c] = some q ∧ (waived → q.state = .waived ∧ q.flashCheck = false) ∧
    (¬waived → q.state = .checking ∧ q.allowance = 2 ∧ (q.flashCheck = true ↔ q.commanded = ⟨.flashAmber, .dark⟩))

/-- The crossings other than c keep their record, their list of calls and their proof record. -/
def OthersKept (s t : State) (c : Crossing) : Prop :=
  ∀ d : Crossing, d ≠ c → t.crossings[d] = s.crossings[d] ∧ t.calls[d] = s.calls[d] ∧ t.proofs[d] = s.proofs[d]

/-- What no event of one crossing touches: the pins, the registers but the attention flags, the site, the configuration memory, the
plan, the hold, the presses, the nodes and shared memory. -/
def StreetFrame (s t : State) : Prop :=
  t.now = s.now ∧ t.held = s.held ∧ t.part = s.part ∧ t.safeOut = s.safeOut ∧ t.wp = s.wp ∧
  t.regs.anchor = s.regs.anchor ∧ t.regs.start = s.regs.start ∧ t.regs.enables = s.regs.enables ∧
  t.site = s.site ∧ t.config = s.config ∧ t.plan = s.plan ∧ t.hold = s.hold ∧ t.press = s.press ∧
  t.street = s.street ∧ t.status = s.status ∧ t.mem = s.mem ∧ t.pending = s.pending

/-- What no access of the Order Unit, the Journal Writer or the Status Writer touches: the whole of the street side. -/
def BusFrame (s t : State) : Prop :=
  t.now = s.now ∧ t.held = s.held ∧ t.part = s.part ∧ t.safeOut = s.safeOut ∧ t.wp = s.wp ∧
  t.config = s.config ∧ t.line = s.line ∧ t.press = s.press ∧ t.calls = s.calls ∧ t.lamps = s.lamps ∧
  t.crossings = s.crossings ∧ t.plan = s.plan ∧ t.hold = s.hold ∧ t.proofs = s.proofs ∧ t.cues = s.cues ∧
  t.ann = s.ann ∧ t.street = s.street ∧ t.pending = s.pending

/-- An anchor read has begun, the link to join the chain at its end or not; or it has failed at once on a bad address (R159, R160,
R167). -/
def AnchorBegins (s t : State) (restart joins : Bool) : Prop :=
  (s.regs.anchor.toNat % 16 = 0 → s.regs.anchor.toNat + 24 ≤ 0x1000000 →
    t.orders.access = .anchor s.regs.anchor.toNat restart joins ∧ t.orders.link = .stopped) ∧
  (s.regs.anchor.toNat % 16 ≠ 0 ∨ 0x1000000 < s.regs.anchor.toNat + 24 →
    t.orders.access = .idle ∧ t.regs.attention.getLsbD 3 = true ∧ t.orders.link = (if joins then .halted else .stopped))

/-- The journal after the link has left FOLLOWING (R173): its FIFO, lost count, buffer and cursor are kept; with no access under way it is
IDLE, unless FAULTED, which it stays (log 36), and an access under way goes on. -/
def JournalLeaves (s t : State) : Prop :=
  t.journal.fifo = s.journal.fifo ∧ t.journal.lost = s.journal.lost ∧ t.journal.current = s.journal.current ∧
  t.journal.cursor = s.journal.cursor ∧
  (s.journal.access = .idle → s.journal.state ≠ .faulted → t.journal.state = .idle) ∧
  (s.journal.access ≠ .idle ∨ s.journal.state = .faulted → t.journal = s.journal)

/-- The link has stopped at the end of an access, with its watched block saved (R166); a START set again since then acts (log 11). -/
def LinkStops (s t : State) (watched : Option Nat) : Prop :=
  t.orders.saved = watched ∧ t.orders.watched = none ∧ t.orders.stopping = false ∧ JournalLeaves s t ∧
  (s.regs.start = false → t.orders.link = .stopped ∧ t.orders.access = .idle) ∧
  (s.regs.start = true → AnchorBegins s t false true)

/-- The chain halts (R160, R162, R165): LINK_FAULT, the watched block kept as the saved position; the link is HALTED, or STOPPED where
START was cleared meanwhile, and a START set again since then acts (log 11). -/
def Halted (s t : State) : Prop :=
  t.orders.saved = s.orders.watched ∧ t.orders.watched = none ∧ t.regs.attention.getLsbD 3 = true ∧ JournalLeaves s t ∧
  (s.orders.stopping = false → t.orders.link = .halted ∧ t.orders.access = .idle) ∧
  (s.orders.stopping = true → s.regs.start = false → t.orders.link = .stopped ∧ t.orders.access = .idle) ∧
  (s.orders.stopping = true → s.regs.start = true → AnchorBegins s t false true)

/-- The access under way at a LINK_RESTART has ended, and the anchor read begins (R167); the results that wait, the journal, the status
table, the site and the whole of the street side are as they were. -/
def RestartReads (s t : State) : Prop :=
  AnchorBegins s t true s.regs.start ∧ t.orders.restarting = false ∧ t.orders.heldQueue = s.orders.heldQueue ∧
  t.journal = s.journal ∧ t.status = s.status ∧ t.site = s.site ∧ BusFrame s t

/-- No owner holds the ticket of an order it has already taken: not a sequencer, a test, a tally, the plan waiting, a load or a store. -/
def Unclaimed (s : State) (k : Ticket) : Prop :=
  (∀ c : Crossing, ∀ o ∈ s.crossings[c].order, o.ticket ≠ k) ∧ (∀ st : Station, s.line.tests[st].ticket? ≠ some k) ∧
  (∀ y ∈ s.ann.tallies, y.ticket ≠ k) ∧ (∀ w ∈ s.plan.waiting, w.2 ≠ k) ∧ (∀ l ∈ s.site.load, l.ticket ≠ k) ∧
  (∀ x ∈ s.config.store, x.ticket ≠ k)

/-- The slot of a ticket is OPEN with the ticket's use number in s, and HELD with the result in t (R164). -/
def Ends (s t : State) (k : Ticket) (r : Result) : Prop :=
  ∀ h, s.orders.slots[k.slot] = ⟨k.use, .occupied h⟩ → t.orders.slots[k.slot] = ⟨k.use, .finished h r⟩

/-- No station test and no tally holds the ticket, so nothing but its owner's end decides its result. -/
def NoTestOrTally (s : State) (k : Ticket) : Prop :=
  (∀ st : Station, s.line.tests[st].ticket? ≠ some k) ∧ (∀ y ∈ s.ann.tallies, y.ticket ≠ k)

/-- A crossing in MAINT has left it: each test at its stations is over and its order ended ABORTED with that cause (R32), where neither
a tally nor the crossing's own pending order holds the test's ticket, which none does in a run. -/
def TestsAborted (s t : State) (c : Crossing) : Prop :=
  ∀ st ∈ stationsOf s c, ∀ k, s.line.tests[st].ticket? = some k →
    t.line.tests[st] = .none ∧
    ((∀ y ∈ s.ann.tallies, y.ticket ≠ k) → (∀ o ∈ s.crossings[c].order, o.ticket ≠ k) →
      Ends s t k (Result.refused .aborted 16))

/-- A fault has taken a crossing out of its state into FLASH (R81, R82): its calls dropped, its timers and service record gone, the lamps,
pending acknowledgements and contexts of its stations cleared, and from MAINT the tests there ended; a pending START ends ABORTED, and a
pending STOP goes on from FLASH to its target, DONE. -/
def FlashEntered (s t : State) (c : Crossing) : Prop :=
  t.crossings[c].order = none ∧ t.crossings[c].service = none ∧ t.crossings[c].timer = none ∧ t.crossings[c].minGreen = none ∧
  t.calls[c] = [] ∧ OthersKept s t c ∧
  (∀ st : Station, st ∈ stationsOf s c → t.lamps[st] = false ∧ t.line.ackPending[st] = false ∧ t.ann.contexts[st] = none) ∧
  (s.crossings[c].state = .maint → TestsAborted s t c) ∧
  ((∀ o ∈ s.crossings[c].order, o.start = true) → Shows t c .flash ⟨.flashAmber, .dark⟩ ∧
    t.crossings[c].mode = s.crossings[c].mode ∧
    ∀ o ∈ s.crossings[c].order, NoTestOrTally s o.ticket → Ends s t o.ticket (Result.refused .aborted)) ∧
  (∀ o, s.crossings[c].order = some o → o.start = false → (o.target = .dark ∨ o.target = .maint) →
    Shows t c (if o.target = .dark then .dark else .maint)
      (if o.target = .dark then ⟨.dark, .dark⟩ else ⟨.flashAmber, .dark⟩) ∧ t.crossings[c].mode = o.target ∧
    (NoTestOrTally s o.ticket → Ends s t o.ticket (Result.done (if o.target = .dark then 0 else 1))))

/-- Every crossing evaluates commit under a hold state (R64, R97, R106): one whose commit is due enters VEH_AMBER with all its calls in
its service record, and any other stays as it is. -/
def CommitsEvaluated (s t : State) (hold : HoldState) : Prop :=
  ∀ c : Crossing,
    let held : State := { s with hold := { s.hold with state := hold } }
    (commitDue held c = false →
      t.crossings[c] = s.crossings[c] ∧ t.calls[c] = s.calls[c] ∧ t.proofs[c] = s.proofs[c]) ∧
    (commitDue held c = true → Enters s t c .vehAmber ⟨.amber, .dontWalk⟩ ∧ t.calls[c] = [] ∧
      ∃ v, t.crossings[c].service = some v ∧ v.entries = s.calls[c])

/-- Entries that come back to the list of their crossing, those whose expiry time has passed escalated (R49). -/
def returned (now : Time) (es : List Entry) : List Entry :=
  es.map (fun (y : Entry) =>
    if y.expiry.any (fun z => decide ((now - z).toNat < 2147483648)) then { y with grade := 4, expiry := none } else y)

/-- What the beginning of a hold does at every crossing (R101, R103, R105): one in RED_BEFORE_WALK goes back to VEH_GREEN with its
entries, or into the target of a pending STOP; one in WALK has its walk cut, and clears at once where 4.0 s of it have passed; any
other goes on. -/
def HoldBegins (s t : State) : Prop :=
  ∀ c : Crossing,
    (s.crossings[c].state ≠ .redBeforeWalk → s.crossings[c].state ≠ .walk →
      t.crossings[c] = s.crossings[c] ∧ t.calls[c] = s.calls[c] ∧ t.proofs[c] = s.proofs[c]) ∧
    (∀ x v, s.crossings[c].state = .redBeforeWalk → crossingRec? s c = some x → s.crossings[c].service = some v →
      (∀ o ∈ s.crossings[c].order, o.start = true) →
      Enters s t c .vehGreen ⟨.green, .dontWalk⟩ ∧ t.crossings[c].service = none ∧ t.crossings[c].timer = none ∧
      t.crossings[c].minGreen = some (s.now + BitVec.ofNat 32 (1000 * x.minGreen), false) ∧
      (s.crossings[c].recalled = false → s.calls[c] = [] → (v.entries.map Entry.source).Nodup →
        t.calls[c] = returned s.now v.entries)) ∧
    (∀ o, s.crossings[c].state = .redBeforeWalk → s.crossings[c].order = some o → o.start = false →
      (o.target = .dark ∨ o.target = .maint) →
      Enters s t c (if o.target = .dark then .dark else .maint)
        (if o.target = .dark then ⟨.dark, .dark⟩ else ⟨.flashAmber, .dark⟩) ∧ t.calls[c] = []) ∧
    (∀ w, s.crossings[c].state = .walk → s.crossings[c].walkStart = some w →
      (2147483648 ≤ (s.now - (w + 4000#32)).toNat →
        t.crossings[c] = { s.crossings[c] with timer := some (w + 4000#32), walkCut := true } ∧
        t.calls[c] = s.calls[c] ∧ t.proofs[c] = s.proofs[c]) ∧
      ((s.now - (w + 4000#32)).toNat < 2147483648 →
        Enters s t c .clearance ⟨.red, .flashDontWalk⟩ ∧ t.cues.cue[c] = .none ∧ t.calls[c] = s.calls[c]))

/-! ### The checks of R6 -/

/-- A crossing slot of a body is absent, or every field lies in its range (R2). -/
def CrossingSlotInRange (x : RawCrossing) : Prop :=
  x.present = 0 ∨
  (x.present = 1 ∧ (1 ≤ x.record.headAddr ∧ x.record.headAddr ≤ 63) ∧ (40 ≤ x.record.width ∧ x.record.width ≤ 400) ∧
    (40 ≤ x.record.walkTime ∧ x.record.walkTime ≤ 200) ∧ x.record.extension ≤ 150 ∧
    (6 ≤ x.record.minGreen ∧ x.record.minGreen ≤ 120) ∧ (30 ≤ x.record.amber ∧ x.record.amber ≤ 60) ∧
    (10 ≤ x.record.redBefore ∧ x.record.redBefore ≤ 50) ∧ (10 ≤ x.record.redAfter ∧ x.record.redAfter ≤ 50) ∧
    (10 ≤ x.record.normalSpeed ∧ x.record.normalSpeed ≤ 15) ∧
    (6 ≤ x.record.accessibleSpeed ∧ x.record.accessibleSpeed ≤ 10) ∧ (1 ≤ x.record.home ∧ x.record.home ≤ 3) ∧
    x.nNeighbours ≤ 4 ∧ (∀ n ∈ x.record.neighbours, 1 ≤ n ∧ n ≤ 8) ∧ x.record.volumeCap ≤ 15 ∧
    (10 ≤ x.record.longPress ∧ x.record.longPress ≤ 25) ∧ (1 ≤ x.nName ∧ x.nName ≤ 16) ∧
    (∀ n ∈ x.record.name, 1 ≤ n ∧ n ≤ 250) ∧ x.nInfo ≤ 4)

/-- A station slot of a body is absent, or every field lies in its range (R3). -/
def StationSlotInRange (x : RawStation) : Prop :=
  x.present = 0 ∨
  (x.present = 1 ∧ (1 ≤ x.record.addr ∧ x.record.addr ≤ 63) ∧ (1 ≤ x.record.crossing ∧ x.record.crossing ≤ 8) ∧
    x.record.kerb ≤ 1)

/-- A check of R6, by its kind, fails on a body at an item; the last is made on LOAD_SITE alone. -/
def FailsCheck (body : List Word) (area : Option (Nat × Nat)) (onLoad : Bool) (kind item : Nat) : Prop :=
  let site := siteOf body
  (kind = 1 ∧ ((∃ c : Crossing, item = c.val + 1 ∧ ¬CrossingSlotInRange (rawCrossing body c)) ∨
    ∃ st : Station, item = 33 + st.val ∧ ¬StationSlotInRange (rawStation body st))) ∨
  (kind = 2 ∧ 2 ≤ site.addresses.count item) ∨
  (kind = 3 ∧ ∃ (st : Station) (r : StationRec), item = st.val + 1 ∧ site.stations[st] = some r ∧
    ∀ c : Crossing, r.crossing = c.val + 1 → site.crossings[c] = none) ∨
  (kind = 4 ∧ ∃ c : Crossing, item = c.val + 1 ∧ 8 < site.stationCount c) ∨
  (kind = 5 ∧ ∃ (c : Crossing) (r : CrossingRec), item = c.val + 1 ∧ site.crossings[c] = some r ∧
    ∃ n ∈ r.neighbours, n = c.val + 1 ∨ ∀ m : Crossing, n = m.val + 1 → site.crossings[m] = none) ∨
  (kind = 6 ∧ ∃ c : Crossing, item = c.val + 1 ∧ 4 < (site.hears c).length) ∨
  (kind = 7 ∧ onLoad = true ∧ ∃ (c : Crossing) (r : CrossingRec), item = c.val + 1 ∧ site.crossings[c] = some r ∧
    ∃ d ∈ r.info, d.len ≠ 0 ∧ ∀ base limit, area = some (base, limit) → d.addr < base ∨ limit < d.addr + d.len)

/-- The order of an owner leaves the queue of the orders handed over. -/
def withoutHanded (s : State) (h : Handed) : State :=
  { s with orders := { s.orders with handed := s.orders.handed.erase h } }

/-- The journal loses nothing and has room for n more records. -/
def JournalRoom (s : State) (n : Nat) : Prop := s.journal.lost = 0 ∧ s.journal.fifo.length + n ≤ 128

/-- How many records the beginning of a hold can make (R97, R101, R105): its own, and at each crossing those of a return to VEH_GREEN or
of the entry to a stop target in its place. -/
def holdRecords (s : State) : Nat :=
  1 + (allCrossings.map (fun c =>
    2 + (stationsOf s c).length + (s.crossings[c].service.map (fun v => v.entries.length)).getD 0)).sum

/-- The journal holds a record made at the event. -/
def Holds (s t : State) (crossing : Nat) (body : RecordBody) : Prop :=
  (⟨crossing, s.now, body⟩ : JournalRecord) ∈ t.journal.fifo

end Sys2Proof.Machine
end

