-- ==== Sys2Proof/Certificates/Slice0/Obligations.lean ====
section
/-! DEFINITION. The statements for the provers: what each command of the part does, by the rules of spec/, and the invariants that
every step keeps. Where a rule leaves a convention open the docstring names the log entry. -/

open Sys2Proof Sys2Proof.Machine

/-! ### The queue and time (log 2) -/

/-- A step with a command at the front of its queue is exec of that command on the state with the queue's rest. -/
def Obligations.FrontCommandRuns : Prop :=
  ∀ (c : Instr) (rest : List Instr) (s : State), s.pending = c :: rest → step s = exec c { s with pending := rest }

/-- On an empty queue one millisecond passes (the model's choice, log 2): the count rises by one and wraps, only the
nodes' watches run, and exactly the events then due wait, in some order. Held in reset nothing passes (log 17). -/
def Obligations.EmptyQueuePassesAMillisecond : Prop :=
  ∀ s : State, s.pending = [] →
    (s.held = true → step s = .next s) ∧
    (s.held = false → ∃ t, step s = .next t ∧ t.pending.Perm (dueEvents t) ∧
      t = { s with now := s.now + 1, street := t.street, freeCount := t.freeCount, pending := t.pending })

/-- Every command answers a next state and leaves the commands that wait behind it as they are; none but a reset moves
the count. -/
def Obligations.EveryCommandAnswers : Prop :=
  ∀ (i : Instr) (s : State), ∃ t, exec i s = .next t ∧ t.pending = s.pending ∧
    ((∀ low, i ≠ .powerOnOrExternalReset low) → i ≠ .heldInReset → t.now = s.now ∧ t.held = s.held)

/-! ### Reset and LOADING (chapter 11) -/

/-- R179 and the tables of resets: a power-on or external reset leaves every block at its reset value, enters LOADING
with SAFE_OUT open, takes HOLD_IN at its level, and leaves the configuration memory's contents and shared memory
alone. The configuration memory, WP and shared memory keep what they hold by the model's choice (log 1, 6); from when the two
periods are counted is log 7 (DEDUCED), that no station's last poll counts as a test is log 43 (DESIGN CHOICE). -/
def Obligations.PowerOnLeavesResetValues : Prop :=
  ∀ (low : Bool) (s : State), ∃ t, exec (.powerOnOrExternalReset low) s = .next t ∧
    t.now = 0 ∧ t.held = false ∧ t.part = .loading ∧ t.safeOut = false ∧
    t.regs = { anchor := 0, start := false, enables := 0, attention := 0 } ∧
    t.site.inForce = none ∧ t.site.phraseArea = none ∧ t.site.load = none ∧
    (∀ a : NodeAddr, t.site.nodeMap[a] = .none ∧ t.line.nodes[a] = none) ∧
    t.config = { presence := .absent, store := none, stored := s.config.stored } ∧
    t.line.scanPos = none ∧ t.line.exchange = none ∧ t.line.roundsWaiting = 0 ∧ t.line.nextRound = 50 ∧ t.wp = s.wp ∧
    (∀ c : Crossing, t.crossings[c] =
        { mode := .dark, state := .dark, timer := none, minGreen := none, walkStart := none, walkCut := false,
          countdown := 0, mask := 0, planMask := 0, order := none, service := none, recalled := false } ∧
      t.calls[c] = [] ∧ t.proofs[c] = none ∧ t.cues.cue[c] = .none ∧ t.plan.windowOpen[c] = true ∧
      t.plan.mask[c] = 0 ∧ t.site.hearing[c] = [] ∧ t.site.names[c] = [] ∧ t.site.usable[c] = []) ∧
    (∀ st : Station, t.press[st] = { last := none, inProgress := false, longTaken := false, stuck := false } ∧
      t.lamps[st] = false ∧ t.line.tests[st] = .none ∧ t.line.flushPending[st] = false ∧
      t.line.ackPending[st] = false ∧ t.line.confirmed[st] = none ∧ t.line.lastPollTest[st] = false ∧
      t.ann.contexts[st] = none ∧ t.ann.baseline[st] = none ∧ t.ann.room[st] = none ∧ t.cues.namePos[st] = 0) ∧
    t.plan.inForce = none ∧ t.plan.waiting = none ∧ t.plan.position = 0 ∧ t.plan.nextTick = none ∧
    t.hold = { state := .idle, hostFlag := false, pinActive := low, timer := none, rawActive := low, qualify := none } ∧
    t.cues.queue = [] ∧ t.ann.tallies = [] ∧ t.ann.reads = [] ∧
    t.orders.link = .stopped ∧ t.orders.watched = none ∧ t.orders.saved = none ∧ t.orders.heldQueue = [] ∧
    t.orders.handed = [] ∧ t.orders.access = .idle ∧ (∀ i : SlotIx, t.orders.slots[i] = ⟨0, .free⟩) ∧
    t.orders.restarting = false ∧ t.orders.stopping = false ∧ t.orders.lookDue = false ∧ t.orders.nextLook = 100 ∧
    t.journal = { fifo := [], lost := 0, state := .idle, listAddr := none, cursor := 0, current := none,
                  access := .idle, nextReread := none, rereadDue := false } ∧
    t.status = { generation := 0, stopped := false, addr := none, nextDue := none, write := none } ∧
    t.made = [] ∧ t.mem = s.mem

/-- R179: power failing or RESET low holds the part in reset with SAFE_OUT open, the configuration memory and shared
memory as they stand; and a part held in reset takes no notice of any command but the two of the reset itself (log
17). -/
def Obligations.HeldInResetStopsAll : Prop :=
  (∀ s : State, ∃ t, exec .heldInReset s = .next t ∧ t.held = true ∧ t.part = .loading ∧ t.safeOut = false ∧
    t.config.stored = s.config.stored ∧ t.mem = s.mem ∧ t.orders.link = .stopped ∧ t.line.exchange = none ∧
    ∀ c : Crossing, t.crossings[c].state = .dark) ∧
  (∀ (i : Instr) (s : State), s.held = true → (∀ low, i ≠ .powerOnOrExternalReset low) → i ≠ .heldInReset →
    exec i s = .next s)

/-- R160, R179: the presence a LOADING ends with, and RUNNING with SAFE_OUT closed, by the first row of its table that
applies, where no site comes in force. With START clear nothing else happens; a START written while LOADING acts then:
the anchor is read, or its address fails. That a memory falls silent at a word, or answers what it was last given, is
the command's operand (log 6). -/
def Obligations.LoadingEndsWithoutASite : Prop :=
  ∀ s : State, s.held = false → s.part = .loading →
    (s.regs.start = true → s.orders.link = .stopped → s.orders.access = .idle →
      ∀ k, ∃ t, exec (.configImageReadDone (.silentAt k)) s = .next t ∧ t.part = .running ∧ t.safeOut = true ∧
      (s.regs.anchor.toNat % 16 = 0 → s.regs.anchor.toNat + 24 ≤ 0x1000000 →
        t.orders.access = .anchor s.regs.anchor.toNat false true ∧ t.orders.link = .stopped) ∧
      (s.regs.anchor.toNat % 16 ≠ 0 ∨ 0x1000000 < s.regs.anchor.toNat + 24 →
        t.orders.link = .halted ∧ t.regs.attention.getLsbD 3 = true)) ∧
    (s.regs.start = false →
    let ended (p : Presence) (stored : List Word) : State :=
      { s with part := .running, safeOut := true, config := { s.config with presence := p, stored := stored } }
    (∀ k, exec (.configImageReadDone (.silentAt k)) s = .next (ended .absent s.config.stored)) ∧
    (exec (.configImageReadDone .stored) s = exec (.configImageReadDone (.other s.config.stored)) s) ∧
    (∀ ws, ws.getD 0 0 ≠ 0x47574B31#32 → exec (.configImageReadDone (.other ws)) s = .next (ended .absent ws)) ∧
    (∀ ws, ws.getD 0 0 = 0x47574B31#32 →
      (ws.getD 1 0).toNat ≠ 144 ∨ checksum (ws.getD 1 0) (slice ws 2 144) ≠ bitsAt (ws.getD 146 0) 0 16 ∨
        (validate (slice ws 2 144) none false).isSome = true →
      exec (.configImageReadDone (.other ws)) s = .next (ended .invalid ws)))

/-- R13, R61, R121, R179: an image that passes every check becomes the site in force: each configured crossing has a
fresh proof record, each crossing whose auto-start flag is set is in STARTUP in RUN_FREE for 3.0 s, and every other
crossing is DARK as it was. R51, R56: of those that start, one with no station begins recall with its recall entry, and
one with a station, every station ACTIVE in the new node table, does not. -/
def Obligations.ValidImageComesInForce : Prop :=
  ∀ (s : State) (ws : List Word), s.held = false → s.part = .loading →
    (∀ c : Crossing, s.crossings[c].state = .dark) →
    ws.getD 0 0 = 0x47574B31#32 → (ws.getD 1 0).toNat = 144 →
    checksum (ws.getD 1 0) (slice ws 2 144) = bitsAt (ws.getD 146 0) 0 16 →
    validate (slice ws 2 144) none false = none →
    ∃ t, exec (.configImageReadDone (.other ws)) s = .next t ∧ t.part = .running ∧ t.safeOut = true ∧
      t.config.presence = .valid ∧ t.site.inForce = some (siteOf (slice ws 2 144)) ∧
      ∀ c : Crossing, match (siteOf (slice ws 2 144)).crossings[c] with
        | none => t.crossings[c] = s.crossings[c] ∧ t.proofs[c] = none
        | some x => (∃ p, t.proofs[c] = some p ∧ p.headAddr = x.headAddr ∧ p.proven = none ∧ p.state = .checking ∧
              p.allowance = 2 ∧ p.flashCheck = false ∧ p.commanded = t.crossings[c].state.aspects) ∧
            if x.autoStart then t.crossings[c].state = .startup ∧ t.crossings[c].mode = .runFree ∧
              t.crossings[c].timer = some (s.now + 3000#32) ∧
              (stationsOf t c = [] → t.crossings[c].recalled = true ∧
                t.calls[c] = listWith s s.calls[c] .remote 1 false true) ∧
              (stationsOf t c ≠ [] → t.crossings[c].recalled = s.crossings[c].recalled ∧ t.calls[c] = s.calls[c])
            else t.crossings[c] = s.crossings[c]

/-! ### Registers (chapter 11) -/

/-- R177, R178, R182, R183: what a write of a word to each register does, and what a read of it gives. ANCHOR stores
it and starts no read; PART_STATE and CLOCK ignore it; NUDGE and ATTENTION act as their commands; CONTROL stores START
and the enables, and is a link restart, a START event or neither. A 1 written to ATTENTION clears the flag in its
place, a 0 leaves it; a write of the enables stores them; neither changes anything else. ATTN is asserted exactly
while a flag is set whose enable is set. ANCHOR reads as last written, NUDGE as 0, CLOCK as the count, CONTROL as
START and the enables, ATTENTION as the five flags, and PART_STATE as the states of the part, the link and the
journal, the presence and the site-valid bit; every other bit reads 0. That a read is a view with no command of its
own is log 30. -/
def Obligations.RegistersReadAndWritten : Prop :=
  (∀ (w : Word) (s : State), s.held = false →
    exec (.registerWrite .anchor w) s = .next { s with regs := { s.regs with anchor := w } } ∧
    exec (.registerWrite .partState w) s = .next s ∧
    exec (.registerWrite .clock w) s = .next s ∧
    exec (.registerWrite .nudge w) s = exec (.nudge w) s ∧
    exec (.registerWrite .attention w) s = exec (.attentionClear w) s ∧
    (w.getLsbD 1 = true →
      exec (.registerWrite .control w) s = exec (.linkRestart (w.getLsbD 0) (w.extractLsb' 8 5)) s) ∧
    (w.getLsbD 1 = false → w.getLsbD 0 = s.regs.start →
      exec (.registerWrite .control w) s = exec (.attentionEnablesWrite (w.extractLsb' 8 5)) s) ∧
    (w.getLsbD 1 = false → w.getLsbD 0 = true → s.regs.start = false →
      exec (.registerWrite .control w) s = exec (.startSet (w.extractLsb' 8 5)) s) ∧
    (w.getLsbD 1 = false → w.getLsbD 0 = false → s.regs.start = true →
      exec (.registerWrite .control w) s = exec (.startCleared (w.extractLsb' 8 5)) s)) ∧
  (∀ s : State, s.held = false →
    (∀ w : Word, ∃ t, exec (.attentionClear w) s = .next t ∧
      t = { s with regs := { s.regs with attention := t.regs.attention } } ∧
      ∀ k, k < 5 → t.regs.attention.getLsbD k = (s.regs.attention.getLsbD k && !w.getLsbD k)) ∧
    (∀ e : BitVec 5, exec (.attentionEnablesWrite e) s = .next { s with regs := { s.regs with enables := e } }) ∧
    (attn s = true ↔ ∃ k, k < 5 ∧ s.regs.attention.getLsbD k = true ∧ s.regs.enables.getLsbD k = true)) ∧
  (∀ s : State,
    readRegister s .anchor = s.regs.anchor ∧ readRegister s .nudge = 0 ∧ readRegister s .clock = s.now ∧
    (∀ k, k < 32 → (readRegister s .control).getLsbD k =
      if k = 0 then s.regs.start else if 8 ≤ k then s.regs.enables.getLsbD (k - 8) else false) ∧
    (∀ k, k < 32 → (readRegister s .attention).getLsbD k = s.regs.attention.getLsbD k) ∧
    readRegister s .partState = wordOf
      (match s.part with | .loading => 0 | .running => 1 | .lockout => 2)
      (match s.orders.link with | .stopped => 0 | .following => 1 | .halted => 2)
      (match s.journal.state with | .idle => 0 | .writing => 1 | .stalled => 2 | .faulted => 3)
      ((match s.config.presence with | .absent => 0 | .valid => 1 | .invalid => 2) +
        if s.site.inForce = none then 0 else 16))

/-- R177, R178: only a reset and the writes that name them change ANCHOR or clear an attention flag: after every other
command ANCHOR is as it was and every flag that was set is set. -/
def Obligations.OnlyWritesClearAttention : Prop :=
  ∀ (i : Instr) (s t : State), exec i s = .next t → (∀ low, i ≠ .powerOnOrExternalReset low) → i ≠ .heldInReset →
    (∀ w, i ≠ .attentionClear w) → (∀ r w, i ≠ .registerWrite r w) →
    t.regs.anchor = s.regs.anchor ∧ ∀ k, s.regs.attention.getLsbD k = true → t.regs.attention.getLsbD k = true

/-! ### The link (chapter 9) -/

/-- R159, R160: START set from STOPPED reads the anchor, or fails at once on a bad address, with LINK_FAULT and the
link HALTED; while LOADING the bits are stored and nothing else happens, and so it is at the moment of the write while
an access of the Order Unit is under way: START then acts when that access ends (log 11). R160, R166, R173: START
cleared stops the link at its watched block, at once or when the access under way ends; from HALTED the link is STOPPED
with its saved position kept; from STOPPED an anchor read under way goes on and the link stays STOPPED at its end.
Slots, held results and the journal's FIFO, buffer and cursor are kept, and the journal is IDLE, or stays FAULTED (log
36). What an access under way does first is log 11; that a look which has fallen due stays due is log 35. -/
def Obligations.StartSetAndCleared : Prop :=
  (∀ (e : BitVec 5) (s : State), s.held = false → s.regs.start = false →
     (s.part = .loading → exec (.startSet e) s = .next { s with regs := { s.regs with start := true, enables := e } }) ∧
     (s.part ≠ .loading → s.orders.link = .stopped → s.orders.access = .idle →
       (s.regs.anchor.toNat % 16 = 0 → s.regs.anchor.toNat + 24 ≤ 0x1000000 →
         exec (.startSet e) s = .next { s with
           regs := { s.regs with start := true, enables := e }
           orders := { s.orders with access := .anchor s.regs.anchor.toNat false true, restarting := false } }) ∧
       (s.regs.anchor.toNat % 16 ≠ 0 ∨ 0x1000000 < s.regs.anchor.toNat + 24 →
         exec (.startSet e) s = .next { s with
           regs := { s.regs with start := true, enables := e, attention := s.regs.attention ||| 8#5 }
           orders := { s.orders with access := .idle, restarting := false, link := .halted } })) ∧
     (s.part ≠ .loading → s.orders.access ≠ .idle →
       exec (.startSet e) s = .next { s with regs := { s.regs with start := true, enables := e } })) ∧
  (∀ (e : BitVec 5) (s : State), s.held = false → s.regs.start = true → s.part ≠ .loading →
     (s.orders.link = .halted → exec (.startCleared e) s = .next { s with
       regs := { s.regs with start := false, enables := e }, orders := { s.orders with link := .stopped } }) ∧
     (s.orders.link = .following → s.orders.access ≠ .idle → exec (.startCleared e) s = .next { s with
       regs := { s.regs with start := false, enables := e }, orders := { s.orders with stopping := true } }) ∧
     (∀ a restart joins, s.orders.link = .stopped → s.orders.access = .anchor a restart joins →
       exec (.startCleared e) s = .next { s with
         regs := { s.regs with start := false, enables := e }
         orders := { s.orders with access := .anchor a restart false } }) ∧
     (s.orders.link = .stopped → (∀ a restart joins, s.orders.access ≠ .anchor a restart joins) →
       exec (.startCleared e) s = .next { s with regs := { s.regs with start := false, enables := e } }) ∧
     (s.orders.link = .following → s.orders.access = .idle → ∃ t, exec (.startCleared e) s = .next t ∧
       t = { s with regs := { s.regs with start := false, enables := e }
                    orders := { s.orders with link := .stopped, saved := s.orders.watched, watched := none,
                                              stopping := false }
                    journal := t.journal } ∧
       JournalLeaves s t ∧ t.journal.access = s.journal.access))

/-- R160, R171, R173, R175, R176: the event in which an anchor read makes the link FOLLOWING. The journal takes the list
address at its first anchor read and at that of a LINK_RESTART, with the cursor at 0, and is FAULTED on a bad one; else,
IDLE with no access under way, it is WRITING to the buffer it has kept, with the next access to it begun, or begins to
read the descriptor at the cursor; in any other state it goes on as it was, which is log 48 (DESIGN CHOICE) for an
access begun before the link left FOLLOWING. The status table takes its address, the 250
ms period runs from now, and a write of the table begins at once with the generation raised, unless the address is bad,
which stops status writing with LINK_FAULT, or writing is stopped, or a write is in progress, which goes on (log 38). -/
def Obligations.JoiningBeginsJournalAndTable : Prop :=
  ∀ (s : State) (a : Nat) (restart : Bool) (ws : List Word), s.held = false → s.orders.access = .anchor a restart true →
    s.orders.link = .stopped → s.orders.stopping = false → ws.getD 0 0 = 0x0000C3A5#32 →
    (s.orders.saved = none → (ws.getD 1 0).toNat ≠ 0 ∧ (ws.getD 1 0).toNat % 16 = 0 ∧
      (ws.getD 1 0).toNat + 16 ≤ 0x1000000) →
    let fresh : Bool := restart || s.journal.listAddr.isNone
    let list : Nat := if fresh then (ws.getD 2 0).toNat else s.journal.listAddr.getD 0
    let cursor : Nat := if fresh then 0 else s.journal.cursor
    let table : Nat := (ws.getD 3 0).toNat
    let listOk : Prop := list % 16 = 0 ∧ list + 1024 ≤ 0x1000000
    let tableOk : Prop := table % 4 = 0 ∧ table + 572 ≤ 0x1000000
    ∃ t, exec (.anchorReadDone (.words ws)) s = .next t ∧ t.orders.link = .following ∧ t.mem = s.mem ∧
      t.journal.listAddr = some list ∧ t.journal.cursor = cursor ∧ t.journal.fifo = s.journal.fifo ∧
      t.journal.current = s.journal.current ∧
      (fresh = true → ¬listOk →
        t.journal.state = .faulted ∧ t.journal.access = .idle ∧ t.regs.attention.getLsbD 3 = true) ∧
      (fresh = false ∨ listOk →
        (s.journal.state ≠ .idle ∨ s.journal.access ≠ .idle →
          t.journal.state = s.journal.state ∧ t.journal.access = s.journal.access) ∧
        (s.journal.state = .idle → s.journal.access = .idle →
          (∀ b, s.journal.current = some b → t.journal =
            ({ s.journal with listAddr := some list, cursor := cursor, state := .writing }).pump s.now) ∧
          (s.journal.current = none → listOk → t.journal.state = .idle ∧ t.journal.access = .descriptor) ∧
          (s.journal.current = none → ¬listOk → t.journal.state = .faulted ∧ t.regs.attention.getLsbD 3 = true))) ∧
      t.status.addr = some table ∧ t.status.nextDue = some (s.now + 250#32) ∧
      (¬tableOk → t.status.stopped = true ∧ t.regs.attention.getLsbD 3 = true) ∧
      (tableOk → t.status.stopped = s.status.stopped) ∧
      (tableOk → s.status.stopped = false → s.status.write = none →
        t.status.write = some (table, 0) ∧ t.status.generation = s.status.generation + 1) ∧
      (¬tableOk ∨ s.status.stopped = true ∨ s.status.write ≠ none →
        t.status.write = s.status.write ∧ t.status.generation = s.status.generation)

/-- R95, R157, R167, R174, R176: LINK_RESTART frees every slot and keeps its use number, discards the plan waiting,
the tallies, the saved position and the watched block, moves the FIFO and the open buffer into the lost count, clears
the status stop, keeps the effects handed to the owners, and reads the anchor, at once or when the access under way
ends. Such an access ends with no more than its own word: a link, a header or parameters read are not looked at; a
TAKEN write that succeeds has its order checked and handed to its owner, the slot FREE again with its use number
raised; a word of a result that succeeds is written; and the anchor is then read. While LOADING only the bits are
stored. That the link is STOPPED during the anchor read, which waits for an access under way, and that ORDER_NOTIFY is
set where the word ended was a result's state, are log 10; whether a failed write reached the memory is the command's
operand (log 24). Of a record write or a close under way nothing is written (DESIGN CHOICE, log 47). An order handed
over and not yet taken stays so, a LOAD_PLAN with it (log 42). -/
def Obligations.LinkRestartAbandons : Prop :=
  (∀ (start : Bool) (e : BitVec 5) (s : State), s.held = false →
    (s.part = .loading →
      exec (.linkRestart start e) s = .next { s with regs := { s.regs with start := start, enables := e } }) ∧
    (s.part ≠ .loading → ∃ t, exec (.linkRestart start e) s = .next t ∧
      t.regs.start = start ∧ t.regs.enables = e ∧ t.regs.anchor = s.regs.anchor ∧
      (∀ i : SlotIx, t.orders.slots[i] = ⟨s.orders.slots[i].use, .free⟩) ∧
      t.orders.heldQueue = [] ∧ t.orders.saved = none ∧ t.orders.watched = none ∧ t.orders.handed = s.orders.handed ∧
      t.plan = { s.plan with waiting := none } ∧ t.ann.tallies = [] ∧
      (∀ st : Station, t.ann.contexts[st] = s.ann.contexts[st].map Context.abandon) ∧
      t.journal.fifo = [] ∧ t.journal.current = none ∧ t.journal.cursor = 0 ∧ t.journal.state = .idle ∧
      t.journal.listAddr = s.journal.listAddr ∧
      t.journal.lost = min 4294967295 (s.journal.lost + (s.journal.fifo.map JournalRecord.weight).sum
        + (match s.journal.current with | some b => b.weight | none => 0)) ∧
      t.status = { s.status with stopped := false } ∧
      t.crossings = s.crossings ∧ t.calls = s.calls ∧ t.lamps = s.lamps ∧ t.site = s.site ∧ t.config = s.config ∧
      t.line = s.line ∧ t.hold = s.hold ∧ t.proofs = s.proofs ∧ t.cues = s.cues ∧ t.mem = s.mem ∧
      (s.orders.access = .idle ∨ (∃ a b d, s.orders.access = .anchor a b d) → AnchorBegins s t true start) ∧
      (s.orders.access ≠ .idle → (∀ a b d, s.orders.access ≠ .anchor a b d) →
        t.orders.access = s.orders.access ∧ t.orders.restarting = true ∧ t.orders.link = .stopped))) ∧
  (∀ s : State, s.held = false → s.orders.restarting = true → s.orders.link = .stopped →
    (∀ answer, s.orders.access = .link → ∃ t, exec (.linkWordReadDone answer) s = .next t ∧ RestartReads s t ∧
      t.orders.slots = s.orders.slots ∧ t.orders.handed = s.orders.handed ∧ t.mem = s.mem) ∧
    (∀ block answer, s.orders.access = .header block → ∃ t, exec (.orderHeaderReadDone answer) s = .next t ∧
      RestartReads s t ∧ t.orders.slots = s.orders.slots ∧ t.orders.handed = s.orders.handed ∧ t.mem = s.mem) ∧
    (∀ h answer, s.orders.access = .params h → ∃ t, exec (.orderParamsReadDone answer) s = .next t ∧
      RestartReads s t ∧ t.orders.slots = s.orders.slots ∧ t.orders.handed = s.orders.handed ∧ t.mem = s.mem) ∧
    (∀ h ps, s.orders.access = .taken h ps →
      (∀ i : SlotIx, s.orders.slots[i].state = .free → (∀ j : SlotIx, j < i → s.orders.slots[j].state ≠ .free) →
        ∃ t, exec (.orderTakenWriteDone .ok) s = .next t ∧ RestartReads s t ∧
          HoldsWord t (h.block + 4) (wordOf 2 h.kind h.len (if h.notify then 1 else 0)) ∧
          SameOutside s t (h.block + 4) 4 ∧
          t.orders.slots = s.orders.slots.set i ⟨s.orders.slots[i].use + 1, .free⟩ ∧
          (∀ body, takingChecks s h ps = .ok body →
            t.orders.handed = s.orders.handed ++ [⟨⟨i, s.orders.slots[i].use + 1⟩, body⟩]) ∧
          (∀ code, takingChecks s h ps = .error code → t.orders.handed = s.orders.handed)) ∧
      (∀ landed, ∃ t, exec (.orderTakenWriteDone (.busError landed)) s = .next t ∧ RestartReads s t ∧
        t.orders.slots = s.orders.slots ∧ t.orders.handed = s.orders.handed ∧ SameOutside s t (h.block + 4) 4 ∧
        (landed = false → t.mem = s.mem))) ∧
    (∀ i h r answer, s.orders.access = .detail i h r → ∃ t, exec (.resultDetailWriteDone answer) s = .next t ∧
      RestartReads s t ∧ t.orders.slots = s.orders.slots ∧ t.orders.handed = s.orders.handed ∧
      (answer = .ok → HoldsWord t (h.block + 8) (BitVec.ofNat 32 (r.code.code + r.detail.toNat))) ∧
      (answer = .busError false → t.mem = s.mem) ∧ SameOutside s t (h.block + 8) 4) ∧
    (∀ i h r, s.orders.access = .state i h r →
      (∃ t, exec (.resultStateWriteDone .ok) s = .next t ∧ RestartReads s t ∧ t.orders.slots = s.orders.slots ∧
        t.orders.handed = s.orders.handed ∧
        HoldsWord t (h.block + 4)
          (wordOf (if r.code = .ok then 3 else 4) h.kind h.len (if h.notify then 1 else 0)) ∧
        SameOutside s t (h.block + 4) 4 ∧
        t.regs.attention.getLsbD 0 = (s.regs.attention.getLsbD 0 || h.notify)) ∧
      (∀ landed, ∃ t, exec (.resultStateWriteDone (.busError landed)) s = .next t ∧ RestartReads s t ∧
        t.orders.slots = s.orders.slots ∧ t.orders.handed = s.orders.handed ∧ t.mem = s.mem)))

/-- R5, R159, R160, R166, R171, R176: an anchor read that ends in a bus error, or with a wrong signature, or, where
the link is to begin at the first order block, with a bad first block, sets LINK_FAULT, leaves the link HALTED, or
STOPPED where START was clear at a LINK_RESTART or has been cleared in the read, and hands nothing on. One that
succeeds hands the phrase area to the Site Table, which marks every info descriptor again, and the addresses to the
two writers; the link is then FOLLOWING at the saved position or else at the first order block; where START was clear
or has been cleared it stays STOPPED with its saved position, and a START set since then reads the anchor again (log
11). -/
def Obligations.AnchorReadEnds : Prop :=
  (∀ (s : State) (a : Nat) (restart joins : Bool) (answer : WordsEnd), s.held = false →
    s.orders.access = .anchor a restart joins →
    (∀ ws, answer = .words ws → ws.getD 0 0 ≠ 0x0000C3A5#32 ∨
      (joins = true ∧ s.orders.saved = none ∧ ((ws.getD 1 0).toNat = 0 ∨ (ws.getD 1 0).toNat % 16 ≠ 0 ∨
        0x1000000 < (ws.getD 1 0).toNat + 16))) →
    (joins = true ∨ s.regs.start = false → exec (.anchorReadDone answer) s = .next { s with
      regs := { s.regs with attention := s.regs.attention ||| 8#5 }
      orders := { s.orders with
        access := .idle, restarting := false, link := if joins then .halted else .stopped } }) ∧
    (joins = false → s.regs.start = true → ∃ t, exec (.anchorReadDone answer) s = .next t ∧ AnchorBegins s t false true ∧
      t = { s with regs := { s.regs with attention := s.regs.attention ||| 8#5 }
                   orders := { s.orders with access := t.orders.access, restarting := false, link := t.orders.link } })) ∧
  (∀ (s : State) (a : Nat) (restart joins : Bool) (ws : List Word), s.held = false →
    s.orders.access = .anchor a restart joins → s.orders.link = .stopped →
    ws.getD 0 0 = 0x0000C3A5#32 →
    (joins = true → s.orders.saved = none → (ws.getD 1 0).toNat ≠ 0 ∧ (ws.getD 1 0).toNat % 16 = 0 ∧
      (ws.getD 1 0).toNat + 16 ≤ 0x1000000) →
    s.orders.stopping = false →
    ∃ t, exec (.anchorReadDone (.words ws)) s = .next t ∧ BusFrame s t ∧ t.mem = s.mem ∧
      t.site = { s.site with
        phraseArea := some ((ws.getD 4 0).toNat, (ws.getD 5 0).toNat)
        usable := usableMarks s.site.inForce (some ((ws.getD 4 0).toNat, (ws.getD 5 0).toNat)) } ∧
      t.journal.listAddr =
        (if restart = true ∨ s.journal.listAddr = none then some (ws.getD 2 0).toNat else s.journal.listAddr) ∧
      t.status.addr = some (ws.getD 3 0).toNat ∧
      ((ws.getD 3 0).toNat % 4 ≠ 0 ∨ 0x1000000 < (ws.getD 3 0).toNat + 572 →
        t.status.stopped = true ∧ t.regs.attention.getLsbD 3 = true) ∧
      t.orders.slots = s.orders.slots ∧ t.orders.heldQueue = s.orders.heldQueue ∧
      (joins = false → s.regs.start = false → t.orders = { s.orders with access := .idle }) ∧
      (joins = false → s.regs.start = true → AnchorBegins s t false true ∧ t.orders.saved = s.orders.saved) ∧
      (joins = true → t.orders.link = .following ∧ t.orders.saved = none ∧
        t.orders.watched = some (s.orders.saved.getD (ws.getD 1 0).toNat)))

/-- R161, R171, R177: the 100 ms period and a write to NUDGE make a look fall due, in FOLLOWING alone; with no access
under way, no result held and a slot free, the look begins at once; with a result held, the look or the write of the
first held result begins, and which of the two is free (log 8); while all 16 slots are occupied the look is held. In
STOPPED and HALTED neither does anything to the chain. A NUDGE also has a stalled journal read its descriptor again,
or again after the read under way (log 13). While an access is under way the look waits. A look period that is due
begins the next one 100 ms on; one that is not due does nothing (log 3, 32). -/
def Obligations.LooksAtTheChain : Prop :=
  (∀ (s : State) (w : Word), s.held = false → s.orders.stopping = false →
    let j : JournalWriter :=
      if s.journal.state = .stalled then
        (if s.journal.access = .idle then { s.journal with access := .descriptor }
         else { s.journal with rereadDue := true })
      else s.journal
    (s.orders.link ≠ .following → exec (.nudge w) s = .next { s with journal := j }) ∧
    (s.orders.link = .following → s.orders.access = .idle → s.orders.heldQueue = [] →
      ((∃ i : SlotIx, s.orders.slots[i].state = .free) → exec (.nudge w) s = .next { s with
        orders := { s.orders with access := .link, lookDue := false }, journal := j }) ∧
      ((∀ i : SlotIx, s.orders.slots[i].state ≠ .free) → exec (.nudge w) s = .next { s with
        orders := { s.orders with lookDue := true }, journal := j })) ∧
    (∀ i rest h r, s.orders.link = .following → s.orders.access = .idle → s.orders.heldQueue = i :: rest →
      s.orders.slots[i].state = .finished h r →
      ∃ t, exec (.nudge w) s = .next t ∧ t.journal = j ∧ t.orders.slots = s.orders.slots ∧ t.mem = s.mem ∧
        t.orders.heldQueue = s.orders.heldQueue ∧
        ((t.orders.access = .link ∧ t.orders.lookDue = false ∧ ∃ n : SlotIx, s.orders.slots[n].state = .free) ∨
          (t.orders.access = .detail i h r ∧ t.orders.lookDue = true))) ∧
    (s.orders.link = .following → s.orders.access ≠ .idle → exec (.nudge w) s = .next { s with
        orders := { s.orders with lookDue := true }, journal := j }) ∧
    ((s.now - s.orders.nextLook).toNat < 2147483648 → ∀ t,
      exec (.nudge w) { s with orders := { s.orders with nextLook := s.orders.nextLook + 100#32 } } = .next t →
      exec .chainLookDue s = .next { t with journal := s.journal })) ∧
  (∀ s : State, s.held = false →
    (2147483648 ≤ (s.now - s.orders.nextLook).toNat → exec .chainLookDue s = .next s) ∧
    ((s.now - s.orders.nextLook).toNat < 2147483648 →
      let next : Time := s.orders.nextLook + 100#32
      (s.orders.link ≠ .following →
        exec .chainLookDue s = .next { s with orders := { s.orders with nextLook := next } }) ∧
      (s.orders.link = .following → s.orders.access ≠ .idle →
        exec .chainLookDue s = .next { s with orders := { s.orders with nextLook := next, lookDue := true } }) ∧
      (s.orders.link = .following → s.orders.access = .idle → s.orders.stopping = false → s.orders.heldQueue = [] →
        ((∃ i : SlotIx, s.orders.slots[i].state = .free) → exec .chainLookDue s =
          .next { s with orders := { s.orders with nextLook := next, access := .link, lookDue := false } }) ∧
        ((∀ i : SlotIx, s.orders.slots[i].state ≠ .free) → exec .chainLookDue s =
          .next { s with orders := { s.orders with nextLook := next, lookDue := true } })) ∧
      (∀ i rest h r, s.orders.link = .following → s.orders.access = .idle → s.orders.stopping = false →
        s.orders.heldQueue = i :: rest → s.orders.slots[i].state = .finished h r →
        ∃ t, exec .chainLookDue s = .next t ∧ t = { s with orders := t.orders, freeCount := t.freeCount } ∧
          t.orders = { s.orders with nextLook := next, access := t.orders.access, lookDue := t.orders.lookDue } ∧
          ((t.orders.access = .link ∧ t.orders.lookDue = false ∧ ∃ n : SlotIx, s.orders.slots[n].state = .free) ∨
            (t.orders.access = .detail i h r ∧ t.orders.lookDue = true)))))

/-- R161, R162 steps 1 to 3: a link of 0 ends the look with the watched block as it stands; a link that is not a
multiple of 16, or whose block or parameters lie outside the window, a block that is not PENDING, or a bus error on
any of the reads, halts the chain; else word 1 of the block is read, with the kind in byte 1, the parameter length in
byte 2 and notify in bit 0 of byte 3 (R183), then its parameters from word 3 on where there are 1 to 13 of them, and the block is marked TAKEN next. Where START has been cleared meanwhile a link of 0 stops the
link, and any other is followed on, and a START set again since then reads the anchor (log 11, DEDUCED from R166).
Which bytes of a block the window check takes is log 12. -/
def Obligations.LinkFollowed : Prop :=
  ∀ s : State, s.held = false → s.orders.restarting = false →
    (s.orders.access = .link → s.orders.link = .following →
      (s.orders.stopping = false → s.orders.lookDue = false → s.orders.heldQueue = [] →
        exec (.linkWordReadDone (.word 0)) s = .next { s with orders := { s.orders with access := .idle } }) ∧
      (s.orders.stopping = true → ∃ t, exec (.linkWordReadDone (.word 0)) s = .next t ∧
        LinkStops s t s.orders.watched ∧ BusFrame s t ∧ t.site = s.site ∧ t.mem = s.mem ∧
        t.orders.slots = s.orders.slots ∧ t.orders.heldQueue = s.orders.heldQueue) ∧
      (∀ w : Word, w ≠ 0 → w.toNat % 16 = 0 → w.toNat + 16 ≤ 0x1000000 →
        exec (.linkWordReadDone (.word w)) s = .next { s with orders := { s.orders with access := .header w.toNat } }) ∧
      (∀ answer, answer = .busError ∨ (∃ w : Word, answer = .word w ∧ w ≠ 0 ∧
          (w.toNat % 16 ≠ 0 ∨ 0x1000000 < w.toNat + 16)) →
        ∃ t, exec (.linkWordReadDone answer) s = .next t ∧ Halted s t ∧ BusFrame s t ∧ t.mem = s.mem ∧
          t.orders.slots = s.orders.slots)) ∧
    (∀ block, s.orders.access = .header block →
      let head (w : Word) : OrderHead :=
        { block := block, kind := byteAt w 1, len := byteAt w 2, notify := w.getLsbD 24 }
      (∀ w : Word, byteAt w 0 = 1 → byteAt w 2 = 0 ∨ 13 < byteAt w 2 →
        exec (.orderHeaderReadDone (.word w)) s = .next { s with
          orders := { s.orders with access := .taken (head w) [] } }) ∧
      (∀ w : Word, byteAt w 0 = 1 → 1 ≤ byteAt w 2 → byteAt w 2 ≤ 13 → block + 12 + 4 * byteAt w 2 ≤ 0x1000000 →
        exec (.orderHeaderReadDone (.word w)) s = .next { s with
          orders := { s.orders with access := .params (head w) } }) ∧
      (∀ answer, answer = .busError ∨ (∃ w : Word, answer = .word w ∧ (byteAt w 0 ≠ 1 ∨
          (1 ≤ byteAt w 2 ∧ byteAt w 2 ≤ 13 ∧ 0x1000000 < block + 12 + 4 * byteAt w 2))) →
        ∃ t, exec (.orderHeaderReadDone answer) s = .next t ∧ Halted s t ∧ BusFrame s t ∧ t.mem = s.mem)) ∧
    (∀ h : OrderHead, s.orders.access = .params h →
      (∀ ws : List Word, ws.length = h.len → exec (.orderParamsReadDone (.words ws)) s = .next { s with
          orders := { s.orders with access := .taken h ws } }) ∧
      (∃ t, exec (.orderParamsReadDone .busError) s = .next t ∧ Halted s t ∧ BusFrame s t ∧ t.mem = s.mem))

/-- R162 steps 4 and 5, R163, R164: after the write of TAKEN, keeping kind, length and notify flag, the block is
watched, the order takes the lowest-numbered FREE slot, whose use number rises by 1, and it is handed to its owner
with the slot OPEN, or refused with the slot HELD. Where START has been cleared meanwhile, the link then stops with
that block saved. A failed write halts the chain and takes no order. Whether a failed write reached the memory is the
command's operand (log 24); that a START set again since it was cleared then reads the anchor is log 11 (DEDUCED). -/
def Obligations.OrderTakenAndHandedOver : Prop :=
  ∀ (s : State) (h : OrderHead) (ps : List Word), s.held = false → s.orders.access = .taken h ps →
    s.orders.restarting = false →
    (∀ i : SlotIx, s.orders.slots[i].state = .free → (∀ j : SlotIx, j < i → s.orders.slots[j].state ≠ .free) →
      ∃ t, exec (.orderTakenWriteDone .ok) s = .next t ∧ BusFrame s t ∧ t.site = s.site ∧
        HoldsWord t (h.block + 4) (wordOf 2 h.kind h.len (if h.notify then 1 else 0)) ∧ SameOutside s t (h.block + 4) 4 ∧
        (s.orders.stopping = false → t.orders.watched = some h.block) ∧
        (s.orders.stopping = true → s.orders.link = .following → LinkStops s t (some h.block)) ∧
        (∀ body, takingChecks s h ps = .ok body →
          t.orders.slots = s.orders.slots.set i ⟨s.orders.slots[i].use + 1, .occupied h⟩ ∧
          t.orders.heldQueue = s.orders.heldQueue ∧
          t.orders.handed = s.orders.handed ++ [⟨⟨i, s.orders.slots[i].use + 1⟩, body⟩]) ∧
        (∀ code, takingChecks s h ps = .error code →
          t.orders.slots = s.orders.slots.set i ⟨s.orders.slots[i].use + 1, .finished h (Result.refused code)⟩ ∧
          t.orders.heldQueue = s.orders.heldQueue ++ [i] ∧ t.orders.handed = s.orders.handed)) ∧
    (∀ landed, ∃ t, exec (.orderTakenWriteDone (.busError landed)) s = .next t ∧ Halted s t ∧ BusFrame s t ∧
      SameOutside s t (h.block + 4) 4 ∧ (landed = false → t.mem = s.mem) ∧ t.orders.slots = s.orders.slots ∧
      t.orders.handed = s.orders.handed)

/-- R163, R164, R182, R183: the checks at taking, in their order: a kind other than 1 to 9 is BAD_KIND; a wrong parameter length or a
parameter out of range is BAD_PARAM; an order that passes both is NOT_READY in LOCKOUT and is handed over otherwise;
and, kind by kind, which words are in range and the order they give (R1, R10, R29, R52, R53, R72, R87, R99, R156).
An owner's end for a ticket whose slot is OPEN with that use number makes the slot HELD, last of those that wait to be
written; an end for any other ticket is discarded. Neither reaches an owner's own state. -/
def Obligations.OrderChecksAndEnds : Prop :=
  (∀ (s : State) (h : OrderHead) (ps : List Word),
    (h.kind = 0 ∨ 9 < h.kind → takingChecks s h ps = .error .badKind) ∧
    (let kinds : List (Nat × OrderKind × Nat) := [(1, .loadSite, 1), (2, .storeSite, 0), (3, .loadPlan, 10),
       (4, .setMode, 1), (5, .remoteCall, 1), (6, .cancelCalls, 1), (7, .announce, 5), (8, .testStation, 1),
       (9, .corridorHold, 1)]
     ∀ code k len, (code, k, len) ∈ kinds → h.kind = code →
      (h.len ≠ len ∨ orderBody s k ps = none → takingChecks s h ps = .error .badParam) ∧
      (∀ b, h.len = len → orderBody s k ps = some b →
        (s.part = .lockout → takingChecks s h ps = .error .notReady) ∧
        (s.part ≠ .lockout → takingChecks s h ps = .ok b)))) ∧
  (∀ (s : State) (ps : List Word),
    let w := ps.getD 0 0
    orderBody s .loadSite ps = (if w.toNat % 4 = 0 ∧ w.toNat + 576 ≤ 0x1000000 then some (.loadSite w.toNat) else none) ∧
    orderBody s .storeSite ps = some .storeSite ∧
    (let p := planOf ps
     (p.id.toNat = bitsAt w 0 16 ∧ p.cycle = bitsAt w 16 8 ∧ p.closedMask = bitsAt w 24 4 ∧
       p.waitLimit = bitsAt (ps.getD 1 0) 0 8 ∧ p.holdLimit = bitsAt (ps.getD 1 0) 8 9 ∧
       ∀ c : Crossing, p.start[c] = byteAt (ps.getD (2 + c.val) 0) 0 ∧ p.width[c] = byteAt (ps.getD (2 + c.val) 0) 1) ∧
     (let inRange : Prop := (40 ≤ p.cycle ∧ p.cycle ≤ 240) ∧ p.closedMask ≤ 3 ∧ (20 ≤ p.waitLimit ∧ p.waitLimit ≤ 180) ∧
        (30 ≤ p.holdLimit ∧ p.holdLimit ≤ 300) ∧ ∀ c : Crossing, p.start[c] < p.cycle ∧ p.width[c] ≤ p.cycle
      (inRange → orderBody s .loadPlan ps = some (.loadPlan p)) ∧ (¬inRange → orderBody s .loadPlan ps = none))) ∧
    (∀ c : Crossing, byteAt w 0 = c.val + 1 → configured s c = true →
      (∀ m : Mode, byteAt w 1 = (match m with | .dark => 0 | .maint => 1 | .runFree => 2 | .runCoord => 3) →
        orderBody s .setMode ps = some (.setMode c m)) ∧
      (3 < byteAt w 1 → orderBody s .setMode ps = none) ∧
      (∀ acc : Bool, byteAt w 2 = (if acc then 1 else 0) → byteAt w 1 = 2 ∨ byteAt w 1 = 5 →
        orderBody s .remoteCall ps = some (.remoteCall c (byteAt w 1) acc)) ∧
      (1 < byteAt w 2 ∨ (byteAt w 1 ≠ 2 ∧ byteAt w 1 ≠ 5) → orderBody s .remoteCall ps = none) ∧
      (∀ all : Bool, byteAt w 1 = (if all then 1 else 0) → orderBody s .cancelCalls ps = some (.cancelCalls c all)) ∧
      (1 < byteAt w 1 → orderBody s .cancelCalls ps = none)) ∧
    ((∀ c : Crossing, byteAt w 0 = c.val + 1 → configured s c = false) →
      orderBody s .setMode ps = none ∧ orderBody s .remoteCall ps = none ∧ orderBody s .cancelCalls ps = none) ∧
    (let descs := ((ps.drop 1).take (byteAt w 3)).map (fun d : Word => (⟨bitsAt d 0 24, byteAt d 3⟩ : Desc))
     let inRange : Prop := (byteAt w 2 = 2 ∨ byteAt w 2 = 3) ∧ 1 ≤ byteAt w 3 ∧ byteAt w 3 ≤ 4
     (∀ st : Station, inRange → byteAt w 0 = 0 → byteAt w 1 = st.val + 1 → (stationRec? s st).isSome = true →
       orderBody s .announce ps = some (.announce (.station st) (byteAt w 2) descs)) ∧
     (∀ c : Crossing, inRange → byteAt w 0 = 1 → byteAt w 1 = c.val + 1 → configured s c = true →
       orderBody s .announce ps = some (.announce (.crossing c) (byteAt w 2) descs)) ∧
     (¬inRange ∨ 1 < byteAt w 0 ∨
         (byteAt w 0 = 0 ∧ ∀ st : Station, byteAt w 1 = st.val + 1 → (stationRec? s st).isSome = false) ∨
         (byteAt w 0 = 1 ∧ ∀ c : Crossing, byteAt w 1 = c.val + 1 → configured s c = false) →
       orderBody s .announce ps = none)) ∧
    (∀ st : Station, byteAt w 0 = st.val + 1 → (stationRec? s st).isSome = true →
      (byteAt w 1 = 0 → orderBody s .testStation ps = some (.testStation st .tone)) ∧
      (byteAt w 1 = 1 → orderBody s .testStation ps = some (.testStation st .loop)) ∧
      (1 < byteAt w 1 → orderBody s .testStation ps = none)) ∧
    ((∀ st : Station, byteAt w 0 = st.val + 1 → (stationRec? s st).isSome = false) →
      orderBody s .testStation ps = none) ∧
    (byteAt w 0 = 0 → orderBody s .corridorHold ps = some (.corridorHold false)) ∧
    (byteAt w 0 = 1 → orderBody s .corridorHold ps = some (.corridorHold true)) ∧
    (1 < byteAt w 0 → orderBody s .corridorHold ps = none)) ∧
  (∀ (k : Ticket) (r : Result) (s : State),
    (∀ h, s.orders.slots[k.slot] = ⟨k.use, .occupied h⟩ →
      (endOrder k r s).orders.slots = s.orders.slots.set k.slot ⟨k.use, .finished h r⟩ ∧
      (endOrder k r s).orders.heldQueue = s.orders.heldQueue ++ [k.slot] ∧
      (endOrder k r s).orders.handed = s.orders.handed ∧ BusFrame s (endOrder k r s) ∧
      (endOrder k r s).site = s.site ∧ (endOrder k r s).mem = s.mem) ∧
    ((∀ h, s.orders.slots[k.slot] ≠ ⟨k.use, .occupied h⟩) → endOrder k r s = s))

/-- R165: word 2 of a result is written and then word 1, with DONE or REFUSED and the kind, length and notify flag
kept; then the slot is FREE with its use number, and ORDER_NOTIFY is set where the block asks for it. A bus error on
either halts the chain, frees the slot and sets no ORDER_NOTIFY. Where START has been cleared meanwhile both words are
written first, and the link then stops. Whether a failed write reached the memory is the command's operand (log 24);
that a START set again since it was cleared then reads the anchor is log 11 (DEDUCED). -/
def Obligations.ResultWritten : Prop :=
  ∀ (s : State) (i : SlotIx) (h : OrderHead) (r : Result), s.held = false → s.orders.restarting = false →
    (s.orders.access = .detail i h r →
      exec (.resultDetailWriteDone .ok) s = .next { s with
        mem := Memory.writeWord s.mem (h.block + 8) (BitVec.ofNat 32 (r.code.code + r.detail.toNat))
        orders := { s.orders with access := .state i h r } }) ∧
    (s.orders.access = .state i h r → ∃ t, exec (.resultStateWriteDone .ok) s = .next t ∧ BusFrame s t ∧ t.site = s.site ∧
      HoldsWord t (h.block + 4) (wordOf (if r.code = .ok then 3 else 4) h.kind h.len (if h.notify then 1 else 0)) ∧
      SameOutside s t (h.block + 4) 4 ∧
      t.orders.slots = s.orders.slots.set i ⟨s.orders.slots[i].use, .free⟩ ∧
      t.orders.heldQueue = s.orders.heldQueue.filter (fun j => decide (j ≠ i)) ∧
      (h.notify = true → t.regs.attention.getLsbD 0 = true) ∧
      (h.notify = false → t.regs.attention.getLsbD 0 = s.regs.attention.getLsbD 0) ∧
      (s.orders.stopping = true → s.orders.link = .following → LinkStops s t s.orders.watched)) ∧
    (∀ landed, s.orders.access = .detail i h r → ∃ t, exec (.resultDetailWriteDone (.busError landed)) s = .next t ∧
      Halted s t ∧ BusFrame s t ∧ SameOutside s t (h.block + 8) 4 ∧ (landed = false → t.mem = s.mem) ∧
      t.orders.slots = s.orders.slots.set i ⟨s.orders.slots[i].use, .free⟩ ∧
      t.regs.attention.getLsbD 0 = s.regs.attention.getLsbD 0) ∧
    (∀ landed, s.orders.access = .state i h r → ∃ t, exec (.resultStateWriteDone (.busError landed)) s = .next t ∧
      Halted s t ∧ BusFrame s t ∧ t.mem = s.mem ∧
      t.orders.slots = s.orders.slots.set i ⟨s.orders.slots[i].use, .free⟩ ∧
      t.regs.attention.getLsbD 0 = s.regs.attention.getLsbD 0)

/-! ### Orders at their owners -/

/-- R7, R10, R11, R12, R13: LOAD_SITE starts a load when every crossing is DARK, no store runs and no load is in
progress, and is refused BUSY otherwise. A word of the image joins the staging copy; a bus error ends the load
MEMFAULT with the count of the words before it; after the last word a body that fails a check ends BAD_PARAM with the
kind and the item, one that passes while a crossing is not DARK ends BUSY, and one that passes while every crossing is
DARK becomes the site in force, with every table that follows from it built anew. What the checks decide (R6): a body
is valid when none of the seven fails; else the kind is the first check that fails, and the item its first record,
that of an address clash by log 15. The command names the slot of the order handed over (log 3, 4). -/
def Obligations.LoadSite : Prop :=
  (∀ (s : State) (slot : SlotIx) (k : Ticket) (addr : Nat), s.held = false →
    handedOf slot .loadSite s = some ⟨k, .loadSite addr⟩ →
    ((∀ c : Crossing, s.crossings[c].state = .dark) ∧ s.config.store = none ∧ s.site.load = none →
      exec (.loadSite slot) s = .next { withoutHanded s ⟨k, .loadSite addr⟩ with
        site := { s.site with load := some ⟨k, addr, []⟩ } }) ∧
    ((∃ c : Crossing, s.crossings[c].state ≠ .dark) ∨ s.config.store ≠ none ∨ s.site.load ≠ none →
      exec (.loadSite slot) s =
        .next (endOrder k (Result.refused .busy) (withoutHanded s ⟨k, .loadSite addr⟩)))) ∧
  (∀ (s : State) (l : Load), s.held = false → s.site.load = some l →
    (exec (.imageWordReadDone .busError) s =
      .next (endOrder l.ticket (Result.refused .memfault l.staging.length) { s with site := { s.site with load := none } })) ∧
    (∀ w, l.staging.length + 1 < 144 → exec (.imageWordReadDone (.word w)) s =
      .next { s with site := { s.site with load := some { l with staging := l.staging ++ [w] } } }) ∧
    (∀ w kind item, 144 ≤ l.staging.length + 1 → validate (l.staging ++ [w]) s.site.phraseArea true = some (kind, item) →
      exec (.imageWordReadDone (.word w)) s = .next (endOrder l.ticket (Result.refused .badParam (kind + 16 * item))
        { s with site := { s.site with load := none } })) ∧
    (∀ w, 144 ≤ l.staging.length + 1 → validate (l.staging ++ [w]) s.site.phraseArea true = none →
      (∃ c : Crossing, s.crossings[c].state ≠ .dark) → exec (.imageWordReadDone (.word w)) s =
        .next (endOrder l.ticket (Result.refused .busy) { s with site := { s.site with load := none } })) ∧
    (∀ w, 144 ≤ l.staging.length + 1 → validate (l.staging ++ [w]) s.site.phraseArea true = none →
      (∀ c : Crossing, s.crossings[c].state = .dark) → ∃ t, exec (.imageWordReadDone (.word w)) s = .next t ∧
        (let site := siteOf (l.staging ++ [w])
         t.site.inForce = some site ∧ t.site.load = none ∧ t.site.nodeMap = site.nodeMap ∧
         t.site.hearing = site.hearingTable ∧ t.site.names = site.nameStore ∧
         t.site.phraseArea = s.site.phraseArea ∧ t.site.usable = usableMarks (some site) s.site.phraseArea ∧
         t.line.nodes = nodeTableOf site.nodeMap ∧ t.line.scanPos = none ∧ t.line.exchange = none ∧
         (∀ st : Station, t.press[st] = PressState.cleared ∧ t.lamps[st] = false ∧ t.line.tests[st] = .none ∧
           t.line.confirmed[st] = none ∧ t.ann.baseline[st] = none ∧ t.ann.room[st] = none) ∧
         (∀ c : Crossing, t.cues.cue[c] = .none ∧ (∀ p ∈ t.proofs[c], p.commanded = Pair.dark ∧ p.proven = none ∧
           p.lamps = 0#4 ∧ p.state = .checking ∧ p.allowance = 2 ∧ p.flashCheck = false) ∧
           (t.proofs[c].isSome ↔ site.crossings[c].isSome)) ∧
         Ends s t l.ticket (Result.done (site.crossingTotal + 16 * site.stationTotal)) ∧
         t.crossings = s.crossings ∧ t.calls = s.calls ∧ t.plan = s.plan ∧ t.hold = s.hold ∧ t.mem = s.mem))) ∧
  (∀ (body : List Word) (area : Option (Nat × Nat)) (onLoad : Bool),
    (validate body area onLoad = none ↔ ∀ kind item, ¬FailsCheck body area onLoad kind item) ∧
    (∀ kind item, validate body area onLoad = some (kind, item) →
      FailsCheck body area onLoad kind item ∧
      (∀ k, k < kind → ∀ n, ¬FailsCheck body area onLoad k n) ∧
      (kind ≠ 2 → ∀ n, n < item → ¬FailsCheck body area onLoad kind n)))

/-- R180, R181: STORE_SITE is refused PROTECTED while WP is low, then BUSY while a store or a load is in progress,
then NOT_READY with no site in force; else the store of the site in force begins. It writes the signature word as 0,
the words after it in order, and the signature last; once WP has gone low every write is refused, WP high again or
not; a memory that does not answer ends the store INVALID and MEMFAULT at that word, which keeps what it held (log 44).
Read back whole and the same, whatever the memory was given last, the presence is VALID and the order DONE; else INVALID
and MEMFAULT at the first word that differs, before the word at which the memory falls silent (log 31) or at that word,
or, where none differs but writes were refused, at the first of those (log 26). The command names the slot of the order
handed over (log 3, 4). WP and the memory's answers are operands (log 26, 31). -/
def Obligations.StoreSite : Prop :=
  (∀ (s : State) (slot : SlotIx) (k : Ticket), s.held = false → handedOf slot .storeSite s = some ⟨k, .storeSite⟩ →
    (exec (.storeSite slot false) s =
      .next (endOrder k (Result.refused .writeProtected) { withoutHanded s ⟨k, .storeSite⟩ with wp := false })) ∧
    (s.config.store ≠ none ∨ s.site.load ≠ none → exec (.storeSite slot true) s =
      .next (endOrder k (Result.refused .busy) { withoutHanded s ⟨k, .storeSite⟩ with wp := true })) ∧
    (s.config.store = none → s.site.load = none → s.site.inForce = none → exec (.storeSite slot true) s =
      .next (endOrder k (Result.refused .notReady) { withoutHanded s ⟨k, .storeSite⟩ with wp := true })) ∧
    (∀ site, s.config.store = none → s.site.load = none → s.site.inForce = some site →
      exec (.storeSite slot true) s = .next { withoutHanded s ⟨k, .storeSite⟩ with
        wp := true, config := { s.config with store := some ⟨k, imageOf site, 0, none⟩ } })) ∧
  (∀ (s : State) (x : Store), s.held = false → s.config.store = some x →
    (x.done < 148 → x.refusedAt = none → exec (.storeWriteDone true true) s = .next { s with
      wp := true
      config := { s.config with
        stored := s.config.stored.set (if x.done < 147 then x.done else 0)
          (if x.done = 0 then 0 else if x.done < 147 then x.image.getD x.done 0 else x.image.getD 0 0)
        store := some { x with done := x.done + 1 } } }) ∧
    (x.done < 148 → x.refusedAt = none → exec (.storeWriteDone false true) s = .next { s with
      wp := false
      config := { s.config with
        store := some { x with done := x.done + 1, refusedAt := some (if x.done < 147 then x.done else 0) } } }) ∧
    (∀ wp n, x.done < 148 → x.refusedAt = some n → exec (.storeWriteDone wp true) s = .next { s with
      wp := wp, config := { s.config with store := some { x with done := x.done + 1 } } }) ∧
    (∀ wp, x.done < 148 → exec (.storeWriteDone wp false) s =
      .next (endOrder x.ticket (Result.refused .memfault (if x.done < 147 then x.done else 0)) { s with
        wp := wp, config := { s.config with presence := .invalid, store := none } })) ∧
    (∀ (answer : MemoryAnswer) (back : List Word), 148 ≤ x.done →
      (answer = .stored ∧ back = s.config.stored) ∨ answer = .other back →
      let ended (p : Presence) (r : Result) : State :=
        endOrder x.ticket r { s with config := { s.config with presence := p, store := none, stored := back } }
      (x.refusedAt = none → (∀ j, j < 147 → x.image.getD j 0 = back.getD j 0) →
        exec (.storeReadbackDone answer) s = .next (ended .valid (Result.done 0))) ∧
      (∀ n, x.refusedAt = some n → (∀ j, j < 147 → x.image.getD j 0 = back.getD j 0) →
        exec (.storeReadbackDone answer) s = .next (ended .invalid (Result.refused .memfault n))) ∧
      (∀ j, j < 147 → x.image.getD j 0 ≠ back.getD j 0 → (∀ m, m < j → x.image.getD m 0 = back.getD m 0) →
        exec (.storeReadbackDone answer) s = .next (ended .invalid (Result.refused .memfault j)))) ∧
    (∀ j k, 148 ≤ x.done → j ≤ k → k < 147 → (j < k → x.image.getD j 0 ≠ s.config.stored.getD j 0) →
      (∀ m, m < j → x.image.getD m 0 = s.config.stored.getD m 0) →
      exec (.storeReadbackDone (.silentAt k)) s = .next (endOrder x.ticket (Result.refused .memfault j) { s with
        config := { s.config with presence := .invalid, store := none } })))

/-- R91, R92, R93: a LOAD_PLAN with no plan in force is adopted at once: position 0, the next tick 1000 ms on, every
window computed at position 0 and its sequencer told of a change, a PLAN record ADOPTED, and DONE with the plan id.
With a plan in force the order's plan waits with its slot and the plan in force runs on; a plan already waiting is
superseded, with its PLAN record, and its order ends SUPERSEDED. The command names the slot of the order handed over
(log 3, 4). -/
def Obligations.LoadPlanTaken : Prop :=
  ∀ (s : State) (slot : SlotIx) (k : Ticket) (p : Plan), s.held = false →
    handedOf slot .loadPlan s = some ⟨k, .loadPlan p⟩ →
    (s.plan.inForce = none → ∃ t, exec (.loadPlan slot) s = .next t ∧
      t.plan.inForce = some p ∧ t.plan.waiting = none ∧ t.plan.position = 0 ∧ t.plan.nextTick = some (s.now + 1000#32) ∧
      (∀ c : Crossing, t.plan.windowOpen[c] = windowOpenAt p.cycle p.start[c] p.width[c] 0 ∧
        t.plan.mask[c] = (if windowOpenAt p.cycle p.start[c] p.width[c] 0 then 0 else p.closedMask) ∧
        (t.plan.windowOpen[c] ≠ s.plan.windowOpen[c] ∨ t.plan.mask[c] ≠ s.plan.mask[c] →
          t.crossings[c].planMask = t.plan.mask[c])) ∧
      (JournalRoom s 9 → Holds s t 0 (.plan p.id false)) ∧ Ends s t k (Result.done p.id.toNat) ∧
      t.hold = s.hold ∧ t.mem = s.mem ∧ t.lamps = s.lamps ∧ t.cues = s.cues) ∧
    (∀ q, s.plan.inForce = some q → s.plan.waiting = none → exec (.loadPlan slot) s =
      .next { withoutHanded s ⟨k, .loadPlan p⟩ with plan := { s.plan with waiting := some (p, k) } }) ∧
    (∀ q w j, s.plan.inForce = some q → s.plan.waiting = some (w, j) → ∃ t, exec (.loadPlan slot) s = .next t ∧
      t.plan = { s.plan with waiting := some (p, k) } ∧
      (JournalRoom s 1 → t.journal.fifo = s.journal.fifo ++ [⟨0, s.now, .plan w.id true⟩]) ∧
      Ends s t j (Result.refused .superseded) ∧ t.crossings = s.crossings ∧ t.calls = s.calls ∧ t.mem = s.mem)

/-- R1, R72, R73, R76, R77, R86, R108: a SET_MODE for a crossing that the site no longer configures is refused
BAD_PARAM; one is refused BUSY while a site is loading; a RUN target is refused NODE_LOST while the head is LOST; else
from DARK, MAINT or FLASH the crossing enters STARTUP in that mode for 3.0 s, with the order pending, whatever order
it supersedes, and begins recall with its recall entry where it has no station or every one is LOST (R51); and in a
running state the crossing changes its mode and the mask in use, runs on, evaluates commit,
and the order is DONE with the mode, the order it supersedes SUPERSEDED. The proof record follows a pair newly
commanded. The command names the slot of the order handed over, and the check of the crossing at the owner is the
model's (log 3, 4). -/
def Obligations.SetModeStarts : Prop :=
  ∀ (s : State) (slot : SlotIx) (k : Ticket) (c : Crossing) (m : Mode), s.held = false →
    handedOf slot .setMode s = some ⟨k, .setMode c m⟩ →
    (configured s c = false → exec (.setMode slot) s =
      .next (endOrder k (Result.refused .badParam) (withoutHanded s ⟨k, .setMode c m⟩))) ∧
    (configured s c = true →
    (s.site.load ≠ none → exec (.setMode slot) s =
      .next (endOrder k (Result.refused .busy) (withoutHanded s ⟨k, .setMode c m⟩))) ∧
    (s.site.load = none → (m = .runFree ∨ m = .runCoord) → headLost s c = true → exec (.setMode slot) s =
      .next (endOrder k (Result.refused .nodeLost) (withoutHanded s ⟨k, .setMode c m⟩))) ∧
    (s.site.load = none → (m = .runFree ∨ m = .runCoord) → headLost s c = false →
      (s.crossings[c].state = .dark ∨ s.crossings[c].state = .maint ∨ s.crossings[c].state = .flash) →
      ∃ t, exec (.setMode slot) s = .next t ∧ Enters s t c .startup ⟨.red, .dontWalk⟩ ∧ t.crossings[c].mode = m ∧
        t.crossings[c].mask = (if m = .runCoord then s.crossings[c].planMask else 0) ∧
        t.crossings[c].timer = some (s.now + 3000#32) ∧
        t.crossings[c].order = some { ticket := k, start := true, target := m } ∧
        ((∀ st ∈ stationsOf s c, stationLost s st = true) → t.crossings[c].recalled = true ∧
          t.calls[c] = listWith s s.calls[c] .remote 1 false true) ∧
        ((∃ st ∈ stationsOf s c, stationLost s st = false) →
          t.crossings[c].recalled = s.crossings[c].recalled ∧ t.calls[c] = s.calls[c]) ∧
        (∀ o ∈ s.crossings[c].order, Ends s t o.ticket (Result.refused .superseded)) ∧
        (JournalRoom s 1 → Holds s t (c.val + 1) (.state s.crossings[c].state .startup .order)) ∧
        OthersKept s t c ∧ StreetFrame s t) ∧
    (s.site.load = none → (m = .runFree ∨ m = .runCoord) → headLost s c = false → s.crossings[c].state.running = true →
      let changed : State := { s with crossings := s.crossings.set c { s.crossings[c] with
        mode := m, mask := (if m = .runCoord then s.crossings[c].planMask else 0), order := none } }
      ∃ t, exec (.setMode slot) s = .next t ∧
        (∀ o ∈ s.crossings[c].order, Ends s t o.ticket (Result.refused .superseded)) ∧
        ((∀ o ∈ s.crossings[c].order, o.ticket ≠ k) → Ends s t k (Result.done (if m = .runFree then 2 else 3))) ∧
        (commitDue changed c = false →
          t.crossings[c] = changed.crossings[c] ∧ t.calls[c] = s.calls[c] ∧ t.proofs[c] = s.proofs[c]) ∧
        (commitDue changed c = true → Enters s t c .vehAmber ⟨.amber, .dontWalk⟩ ∧ t.crossings[c].mode = m ∧
          t.calls[c] = [] ∧ ∃ v, t.crossings[c].service = some v ∧ v.entries = s.calls[c]) ∧
        t.lamps = s.lamps ∧ t.cues = s.cues ∧ t.ann = s.ann ∧ OthersKept s t c ∧ StreetFrame s t))

/-- R73, R78, R79, R108: a DARK or MAINT target in VEH_GREEN is entered at once, with the crossing's calls dropped,
its lamps off, its acknowledgements and timers cleared, DONE with the target, the proof record following the pair
newly commanded; in any other running state the order is pending and nothing else of the crossing changes; a crossing
already in the target only answers. An order that was pending ends SUPERSEDED in each of these. The command names the
slot of the order handed over (log 3, 4). -/
def Obligations.SetModeStops : Prop :=
  ∀ (s : State) (slot : SlotIx) (k : Ticket) (c : Crossing) (m : Mode), s.held = false →
    handedOf slot .setMode s = some ⟨k, .setMode c m⟩ → s.site.load = none → configured s c = true →
    (m = .dark ∨ m = .maint) →
    (s.crossings[c].state = .vehGreen ∨ (s.crossings[c].state = .dark ∧ m = .maint) ∨
        (s.crossings[c].state = .maint ∧ m = .dark) ∨ s.crossings[c].state = .flash →
      ∃ t, exec (.setMode slot) s = .next t ∧
        Enters s t c (if m = .dark then .dark else .maint) (if m = .dark then ⟨.dark, .dark⟩ else ⟨.flashAmber, .dark⟩) ∧
        t.crossings[c].mode = m ∧ t.crossings[c].mask = 0 ∧ t.crossings[c].timer = none ∧ t.crossings[c].minGreen = none ∧
        t.crossings[c].service = none ∧ t.crossings[c].countdown = 0 ∧ t.calls[c] = [] ∧
        (∀ st, st ∈ stationsOf s c → t.lamps[st] = false ∧ t.line.ackPending[st] = false ∧
          t.ann.contexts[st] = none) ∧
        t.crossings[c].order = none ∧ (∀ o ∈ s.crossings[c].order, Ends s t o.ticket (Result.refused .superseded)) ∧
        (Unclaimed s k → Ends s t k (Result.done (if m = .dark then 0 else 1))) ∧ OthersKept s t c ∧ StreetFrame s t) ∧
    (s.crossings[c].state = .startup ∨ s.crossings[c].state = .vehAmber ∨ s.crossings[c].state = .redBeforeWalk ∨
        s.crossings[c].state = .walk ∨ s.crossings[c].state = .clearance ∨ s.crossings[c].state = .redAfterWalk →
      (s.crossings[c].order = none → exec (.setMode slot) s = .next { withoutHanded s ⟨k, .setMode c m⟩ with
        crossings := s.crossings.set c
          { s.crossings[c] with order := some { ticket := k, start := false, target := m } } }) ∧
      (∀ o, s.crossings[c].order = some o → ∃ t, exec (.setMode slot) s = .next t ∧
        t.crossings = s.crossings.set c { s.crossings[c] with order := some { ticket := k, start := false, target := m } } ∧
        Ends s t o.ticket (Result.refused .superseded) ∧ t.calls = s.calls ∧ t.proofs = s.proofs ∧ t.lamps = s.lamps ∧
        t.ann = s.ann ∧ t.cues = s.cues ∧ StreetFrame s t)) ∧
    ((s.crossings[c].state = .dark ∧ m = .dark) ∨ (s.crossings[c].state = .maint ∧ m = .maint) →
      (s.crossings[c].order = none → exec (.setMode slot) s =
        .next (endOrder k (Result.done (if m = .dark then 0 else 1)) (withoutHanded s ⟨k, .setMode c m⟩))) ∧
      (∀ o, s.crossings[c].order = some o → ∃ t, exec (.setMode slot) s = .next t ∧
        t.crossings = s.crossings.set c { s.crossings[c] with order := none } ∧
        Ends s t o.ticket (Result.refused .superseded) ∧
        (o.ticket ≠ k → Ends s t k (Result.done (if m = .dark then 0 else 1)))))

/-- R42, R52, R71: a REMOTE_CALL enters or merges in STARTUP, CLEARANCE and RED_AFTER_WALK (and in VEH_GREEN, where
commit is then evaluated), is absorbed in VEH_AMBER, RED_BEFORE_WALK and WALK, and is refused NOT_READY elsewhere. One
that makes the service accessible in a WALK that is not cut moves the walk end to the later of it and the accessible
walk time from the walk start; else an absorption moves no timer (the later of two times is log 32). The
command names the slot of the order handed over (log 3, 4). -/
def Obligations.RemoteCallTaken : Prop :=
  ∀ (s : State) (slot : SlotIx) (k : Ticket) (c : Crossing) (g : Nat) (acc : Bool), s.held = false →
    handedOf slot .remoteCall s = some ⟨k, .remoteCall c g acc⟩ →
    let s₀ := withoutHanded s ⟨k, .remoteCall c g acc⟩
    let entered : State := { s₀ with calls := s.calls.set c (listWith s s.calls[c] .remote g acc false) }
    let done := Result.done (if (entryOf s.calls[c] .remote).isSome then 1 else 0)
    (s.crossings[c].state = .startup ∨ s.crossings[c].state = .clearance ∨ s.crossings[c].state = .redAfterWalk →
      exec (.remoteCall slot) s = .next (endOrder k done entered)) ∧
    (s.crossings[c].state = .vehGreen →
      (commitDue entered c = false → exec (.remoteCall slot) s = .next (endOrder k done entered)) ∧
      (commitDue entered c = true → listTells s.calls[c] .remote g = true →
        ∃ t, exec (.remoteCall slot) s = .next t ∧ Enters s t c .vehAmber ⟨.amber, .dontWalk⟩ ∧ t.calls[c] = [] ∧
          (∃ v, t.crossings[c].service = some v ∧ v.entries = entered.calls[c]) ∧ Ends s t k done)) ∧
    (s.crossings[c].state = .vehAmber ∨ s.crossings[c].state = .redBeforeWalk ∨ s.crossings[c].state = .walk →
      ∃ t, exec (.remoteCall slot) s = .next t ∧ Ends s t k (Result.done 2) ∧ t.calls = s.calls ∧ t.lamps = s.lamps ∧
        (∀ v ∈ s.crossings[c].service, ∃ u, t.crossings[c].service = some u ∧ u.grade = max v.grade g ∧
          u.accessible = (v.accessible || acc) ∧ u.absorbed = min 255 (v.absorbed + 1) ∧
          u.callsTaken = v.callsTaken ∧ u.oldest = v.oldest ∧ u.entries = v.entries ∧
          (∀ x e w, s.crossings[c].state = .walk → s.crossings[c].walkCut = false → acc = true → v.accessible = false →
            crossingRec? s c = some x → s.crossings[c].timer = some e → s.crossings[c].walkStart = some w →
            let longer := w + BitVec.ofNat 32 (100 * (x.walkTime + x.extension))
            t.crossings[c].timer = some (if (e - longer).toNat < 2147483648 then e else longer)) ∧
          (s.crossings[c].state ≠ .walk ∨ s.crossings[c].walkCut = true ∨ acc = false ∨ v.accessible = true →
            t.crossings[c].timer = s.crossings[c].timer)) ∧
        t.crossings[c].state = s.crossings[c].state ∧ t.proofs = s.proofs ∧ OthersKept s t c ∧ StreetFrame s t) ∧
    (s.crossings[c].state = .dark ∨ s.crossings[c].state = .maint ∨ s.crossings[c].state = .flash →
      exec (.remoteCall slot) s = .next (endOrder k (Result.refused .notReady) s₀))

/-- R53: CANCEL_CALLS removes the REMOTE entry that is no recall entry, or every entry; one CALL_DROPPED record counts
them where there is any; the lamps of the stations whose entries go are put out; DONE with the count. The command
names the slot of the order handed over (log 3, 4). -/
def Obligations.CancelCallsTaken : Prop :=
  ∀ (s : State) (slot : SlotIx) (k : Ticket) (c : Crossing) (all : Bool), s.held = false →
    handedOf slot .cancelCalls s = some ⟨k, .cancelCalls c all⟩ →
    let goes (e : Entry) : Bool := all || (decide (e.source = .remote) && !e.recalled)
    let n := (s.calls[c].filter goes).length
    ∃ t, exec (.cancelCalls slot) s = .next t ∧ t.calls[c] = s.calls[c].filter (fun e => !goes e) ∧
      (∀ st : Station, t.lamps[st] =
        (s.lamps[st] && !(s.calls[c].any (fun e => goes e && decide (e.source = .station st))))) ∧
      (n = 0 → t.journal.fifo = s.journal.fifo ∧ t.journal.lost = s.journal.lost) ∧
      (0 < n → JournalRoom s 1 → t.journal.fifo = s.journal.fifo ++ [⟨c.val + 1, s.now, .callDropped n .cancelled⟩]) ∧
      Ends s t k (Result.done n) ∧ t.crossings = s.crossings ∧ OthersKept s t c ∧ StreetFrame s t

/-- R141, R142, R151, R156, R157, R158: an ANNOUNCE whose descriptor lies outside the phrase area is refused BOUNDS with
the first such; one for a crossing with no station is DONE with seven counts of 0; one for one station makes its request
there, one for a crossing at each of its stations. Where the station is IDLE, its crossing runs and its node is ACTIVE,
the announcement starts with cursors at 0, SUSPENDED in WALK and CLEARANCE. A request that starts nothing has its one
outcome counted, and ends the order DONE where none is to come: COMPLETED with no place to play, BUSY under an
announcement of no lower priority, NOT_RUNNING, STATION_LOST. One of a higher priority takes the context over: the
announcement in it ends CUT with a flush, which is log 21 (DEDUCED) where it was SUSPENDED, and the new one starts,
suspended if that was. An order that LOCKOUT has ended before it was taken ends its requests NOT_RUNNING with its slot
and no tally, and one whose slot is abandoned with slot 0 (log 28). The slot byte 0 of an announcement of origin STATION
is log 39 (DESIGN CHOICE). The command names the slot of the order handed over (log 3, 4). -/
def Obligations.AnnounceTaken : Prop :=
  ∀ (s : State) (slot : SlotIx) (k : Ticket) (tg : Target) (pr : Nat) (ds : List Desc), s.held = false →
    handedOf slot .announce s = some ⟨k, .announce tg pr ds⟩ →
    let s₀ := withoutHanded s ⟨k, .announce tg pr ds⟩
    (∀ i, ds.findIdx? (descOutside s.site.phraseArea) = some i →
      exec (.announce slot) s = .next (endOrder k (Result.refused .bounds i) s₀)) ∧
    (∀ c, tg = .crossing c → stationsOf s c = [] → ds.findIdx? (descOutside s.site.phraseArea) = none →
      ticketLive s k = true → exec (.announce slot) s = .next (endOrder k (Result.done 0) s₀)) ∧
    (∀ st c, tg = .station st → crossingOf s st = some c → s.crossings[c].state.running = true → stationLost s st = false →
      s.ann.contexts[st] = none → ds.findIdx? (descOutside s.site.phraseArea) = none → ticketLive s k = true →
      (∃ d ∈ ds, d.len ≠ 0) →
      ∃ t x, exec (.announce slot) s = .next t ∧ t.ann.contexts[st] = some x ∧ x.priority = pr ∧
        x.origin = .order (some k) ∧ x.hasName = false ∧ x.descs = ds ∧ x.send = 0 ∧ x.confirmed = 0 ∧ x.buffer = [] ∧
        x.readInFlight = true ∧
        x.suspended = decide (s.crossings[c].state = .walk ∨ s.crossings[c].state = .clearance) ∧
        (∀ su : Station, su ≠ st → t.ann.contexts[su] = s.ann.contexts[su]) ∧
        t.orders.slots = s.orders.slots ∧ t.crossings = s.crossings ∧ t.mem = s.mem) ∧
    (∀ st c out, tg = .station st → crossingOf s st = some c → ds.findIdx? (descOutside s.site.phraseArea) = none →
      ticketLive s k = true → Unclaimed s k →
      ((out = .completed ∧ ∀ d ∈ ds, d.len = 0) ∨
        ((∃ d ∈ ds, d.len ≠ 0) ∧
          ((out = .busy ∧ ∃ x, s.ann.contexts[st] = some x ∧ pr ≤ x.priority) ∨
            (s.ann.contexts[st] = none ∧ out = .notRunning ∧ s.crossings[c].state.running = false) ∨
            (s.ann.contexts[st] = none ∧ out = .stationLost ∧ s.crossings[c].state.running = true ∧
              stationLost s st = true)))) →
      ∃ t, exec (.announce slot) s = .next t ∧ t.ann.contexts = s.ann.contexts ∧ t.ann.tallies = s.ann.tallies ∧
        Ends s t k (Result.done (16 ^ (match out with
          | .completed => 0 | .cut => 1 | .busy => 2 | .fetchFault => 3 | .formatFault => 4 | .notRunning => 5
          | .stationLost => 6))) ∧
        (JournalRoom s 1 → Holds s t (c.val + 1) (.announceEnd st out true (k.slot.val + 1) 0)) ∧
        t.crossings = s.crossings ∧ t.line = s.line ∧ t.mem = s.mem) ∧
    (∀ st c x, tg = .station st → crossingOf s st = some c → ds.findIdx? (descOutside s.site.phraseArea) = none →
      ticketLive s k = true → (∃ d ∈ ds, d.len ≠ 0) → s.ann.contexts[st] = some x → x.priority < pr →
      ∃ t y, exec (.announce slot) s = .next t ∧ t.ann.contexts[st] = some y ∧ y.priority = pr ∧
        y.origin = .order (some k) ∧ y.hasName = false ∧ y.descs = ds ∧ y.send = 0 ∧ y.confirmed = 0 ∧ y.buffer = [] ∧
        y.readInFlight = true ∧ y.suspended = x.suspended ∧ t.line.flushPending[st] = true ∧
        (JournalRoom s 1 → Holds s t (c.val + 1) (match x.origin with
          | .station => .announceEnd st .cut false 0 x.confirmed
          | .order none => .announceEnd st .cut true 0 x.confirmed
          | .order (some j) => .announceEnd st .cut true (j.slot.val + 1) x.confirmed)) ∧
        (∀ su : Station, su ≠ st → t.ann.contexts[su] = s.ann.contexts[su]) ∧ t.crossings = s.crossings ∧ t.mem = s.mem) ∧
    (∀ c, tg = .crossing c → stationsOf s c ≠ [] → ds.findIdx? (descOutside s.site.phraseArea) = none →
      ticketLive s k = true → Unclaimed s k →
      ∃ t, exec (.announce slot) s = .next t ∧ t.crossings = s.crossings ∧ t.mem = s.mem ∧
        (∀ st : Station, st ∉ stationsOf s c ∨ (∀ d ∈ ds, d.len = 0) → t.ann.contexts[st] = s.ann.contexts[st]) ∧
        (∀ st ∈ stationsOf s c, (∃ d ∈ ds, d.len ≠ 0) →
          let starts (suspended : Bool) : Prop := ∃ y, t.ann.contexts[st] = some y ∧ y.priority = pr ∧
            y.origin = .order (some k) ∧ y.hasName = false ∧ y.descs = ds ∧ y.send = 0 ∧ y.confirmed = 0 ∧ y.buffer = [] ∧
            y.readInFlight = true ∧ y.suspended = suspended
          (s.ann.contexts[st] = none →
            (s.crossings[c].state.running = true → stationLost s st = false →
              starts (decide (s.crossings[c].state = .walk ∨ s.crossings[c].state = .clearance))) ∧
            (s.crossings[c].state.running = false ∨ stationLost s st = true → t.ann.contexts[st] = none)) ∧
          (∀ x, s.ann.contexts[st] = some x →
            (pr ≤ x.priority → t.ann.contexts[st] = some x) ∧
            (x.priority < pr → starts x.suspended ∧ t.line.flushPending[st] = true))) ∧
        (∀ out, (out = .completed ∧ ∀ d ∈ ds, d.len = 0) ∨
            (out = .notRunning ∧ (∃ d ∈ ds, d.len ≠ 0) ∧ s.crossings[c].state.running = false ∧
              ∀ st ∈ stationsOf s c, s.ann.contexts[st] = none) →
          Ends s t k (Result.done ((if out = .completed then 1 else 16 ^ 5) * (stationsOf s c).length)) ∧
          (JournalRoom s (stationsOf s c).length → ∀ st ∈ stationsOf s c,
            Holds s t (c.val + 1) (.announceEnd st out true (k.slot.val + 1) 0)))) ∧
    (∀ sts : List Station, sts = (match tg with | .station st => [st] | .crossing c => stationsOf s c) →
      ds.findIdx? (descOutside s.site.phraseArea) = none → (∃ d ∈ ds, d.len ≠ 0) → ticketLive s k = false → Unclaimed s k →
      (∀ st ∈ sts, s.ann.contexts[st] = none ∧ ∀ c, crossingOf s st = some c → s.crossings[c].state.running = false) →
      ∃ t, exec (.announce slot) s = .next t ∧ t.ann.contexts = s.ann.contexts ∧ t.ann.tallies = s.ann.tallies ∧
        t.orders = s₀.orders ∧ t.crossings = s.crossings ∧ t.line = s.line ∧ t.mem = s.mem ∧
        (JournalRoom s sts.length → ∀ st ∈ sts, ∀ c, crossingOf s st = some c →
          (∀ h r, s.orders.slots[k.slot] = ⟨k.use, .finished h r⟩ →
            Holds s t (c.val + 1) (.announceEnd st .notRunning true (k.slot.val + 1) 0)) ∧
          ((∀ h r, s.orders.slots[k.slot] ≠ ⟨k.use, .finished h r⟩) →
            Holds s t (c.val + 1) (.announceEnd st .notRunning true 0 0))))

/-- R29, R30, R32: TEST_STATION is refused NOT_READY outside MAINT, then NODE_LOST, then BUSY; else the test runs. A
station that a swap since the taking has left unconfigured is in no crossing, and its order is refused NOT_READY (log
4). A tone test that reaches 3.0 s from its first test poll with no result ends ABORTED with the cause; before that
time the command does nothing (log 3, 32). A crossing that leaves MAINT, by a SET_MODE to a RUN mode or to DARK, or by
a fault, a conflict, a mismatch or the loss of its head, ends every test at its stations ABORTED with that cause; the
end of one test has the cause of its event. R17, R31: a good echo is counted, and one equal to the pattern sent counts
for the test whose last poll it answers; the reply to the 32nd TEST poll ends the loop test DONE with the kind and the
number of exact echoes. The command names the slot of the order handed over (log 3, 4). -/
def Obligations.StationTests : Prop :=
  (∀ (s : State) (slot : SlotIx) (k : Ticket) (st : Station) (kind : TestKind) (c : Crossing), s.held = false →
    handedOf slot .testStation s = some ⟨k, .testStation st kind⟩ → crossingOf s st = some c →
    let s₀ := withoutHanded s ⟨k, .testStation st kind⟩
    (s.crossings[c].state ≠ .maint →
      exec (.testStation slot) s = .next (endOrder k (Result.refused .notReady) s₀)) ∧
    (s.crossings[c].state = .maint → stationLost s st = true →
      exec (.testStation slot) s = .next (endOrder k (Result.refused .nodeLost) s₀)) ∧
    (s.crossings[c].state = .maint → stationLost s st = false → s.line.tests[st] ≠ .none →
      exec (.testStation slot) s = .next (endOrder k (Result.refused .busy) s₀)) ∧
    (s.crossings[c].state = .maint → stationLost s st = false → s.line.tests[st] = .none →
      exec (.testStation slot) s = .next { s₀ with line := { s.line with
        tests := s.line.tests.set st (if kind = .tone then .tone k none else .loop k 0 0) } })) ∧
  (∀ (s : State) (slot : SlotIx) (k : Ticket) (st : Station) (kind : TestKind), s.held = false →
    handedOf slot .testStation s = some ⟨k, .testStation st kind⟩ → crossingOf s st = none →
    exec (.testStation slot) s =
      .next (endOrder k (Result.refused .notReady) (withoutHanded s ⟨k, .testStation st kind⟩))) ∧
  (∀ (s : State) (st : Station) (k : Ticket) (e : Time), s.held = false → s.line.tests[st] = .tone k (some e) →
    ((s.now - e).toNat < 2147483648 → exec (.toneTestTimeout st) s =
      .next (endOrder k (Result.refused .aborted (16 * 3)) { s with line := { s.line with
        tests := s.line.tests.set st .none } })) ∧
    (2147483648 ≤ (s.now - e).toNat → exec (.toneTestTimeout st) s = .next s)) ∧
  (∀ (s : State) (st : Station) (k : Ticket), s.line.tests[st].ticket? = some k →
    (∀ cause, abortTest st cause s = endOrder k
      (Result.refused .aborted (16 * (match cause with | .leftMaint => 1 | .stationLost => 2 | .noResult => 3)))
      { s with line := { s.line with tests := s.line.tests.set st .none } })) ∧
  (∀ (s : State) (slot : SlotIx) (k : Ticket) (c : Crossing) (m : Mode), s.held = false →
    handedOf slot .setMode s = some ⟨k, .setMode c m⟩ → s.site.load = none → configured s c = true →
    s.crossings[c].state = .maint → m = .dark ∨ ((m = .runFree ∨ m = .runCoord) ∧ headLost s c = false) →
    ∃ t, exec (.setMode slot) s = .next t ∧ t.crossings[c].state = (if m = .dark then .dark else .startup) ∧
      TestsAborted s t c) ∧
  (∀ (s : State) (a : NodeAddr) (c : Crossing) (e : NodeEntry) (old : ProofRec) (carried pv : Pair) (n : Nat) (b1 b2 : Byte),
    s.held = false → s.line.exchange = some ⟨a, .normal carried n⟩ → s.site.nodeMap[a] = .head c →
    s.line.nodes[a] = some e → e.lost = false → s.proofs[c] = some old → Pair.ofCode b1.toNat = some pv →
    s.crossings[c].state = .maint → old.flashCheck = false →
    pv.conflict = true ∨ (carried = old.commanded ∧ pv ≠ old.commanded ∧ old.state = .steady) →
    ∃ t, exec (.headReply [BitVec.ofNat 8 a.val, b1, b2, crc8 [BitVec.ofNat 8 a.val, b1, b2]]) s = .next t ∧
      (s.crossings[c].order = none → t.crossings[c].state = .flash) ∧ TestsAborted s t c) ∧
  (∀ (s : State) (x : Exchange) (c : Crossing) (e : NodeEntry) (p : ProofRec) (missed : Bool), s.held = false →
    s.line.exchange = some x → s.site.nodeMap[x.addr] = .head c → s.line.nodes[x.addr] = some e → e.lost = false →
    2 ≤ e.failRun → s.proofs[c] = some p → s.crossings[c].state = .maint →
    ∃ t, exec (if missed then .replyWindowExpiry else .replyCutOff) s = .next t ∧
      (s.crossings[c].order = none → t.crossings[c].state = .flash) ∧ TestsAborted s t c) ∧
  (∀ (s : State) (a : NodeAddr) (st : Station) (e : NodeEntry) (k : Nat) (tk : Ticket) (sent exact p : Nat) (b1 b2 b3 b4 : Byte),
     s.held = false → s.line.exchange = some ⟨a, .test k⟩ → s.site.nodeMap[a] = .station st →
     s.line.nodes[a] = some e → e.lost = false → s.line.tests[st] = .loop tk sent exact →
     s.line.scanPos = some p → a.val < p → s.line.roundsWaiting = 0 →
     (∀ b : NodeAddr, s.site.nodeMap[b] = .station st → b = a) →
     let exact' := if k = sent ∧ [b1, b2, b3, b4] = testPattern k then exact + 1 else exact
     ∃ t, exec (.echoReply [BitVec.ofNat 8 a.val, b1, b2, b3, b4, crc8 [BitVec.ofNat 8 a.val, b1, b2, b3, b4]]) s = .next t ∧
       (∃ e', t.line.nodes[a] = some e' ∧ e'.lost = false ∧ e'.good = min 65535 (e.good + 1)) ∧
       (sent < 32 → t.line.tests[st] = .loop tk sent exact') ∧
       (32 ≤ sent → t.line.tests[st] = .none ∧ Ends s t tk (Result.done (1 + 16 * exact'))) ∧
       t.crossings = s.crossings ∧ t.calls = s.calls ∧ t.press = s.press ∧ t.mem = s.mem)

/-- R96, R97, R99, R101, R103, R105, R106: CORRIDOR_HOLD sets or clears the host hold flag; where the combined request
does not change it only answers with the hold state; where it makes the request active in IDLE the hold is ACTIVE with
its timer at the hold limit, a BEGIN record and the HOLD flag, a crossing in RED_BEFORE_WALK goes back to VEH_GREEN,
one in WALK has its walk cut, and every other runs on; where it makes the request inactive in ACTIVE the hold is IDLE,
with an END record and the HOLD flag, and every crossing evaluates commit; in SPENT the hold is released, and in IDLE,
where the pin has held the request since a reset, nothing more happens. Two of the states are given whole under the
invariant LinkInOrder, which every step keeps. Which of two times is the later and that an
expiry time has passed is log 32 (DEDUCED); where the journal has room for every record of the event, the HOLD record
stands in it. The command names the slot of the order handed over (log 3, 4). -/
def Obligations.CorridorHoldTaken : Prop :=
  ∀ (s : State) (slot : SlotIx) (k : Ticket) (on : Bool), s.held = false →
    handedOf slot .corridorHold s = some ⟨k, .corridorHold on⟩ →
    let s₀ := withoutHanded s ⟨k, .corridorHold on⟩
    ((s.hold.pinActive || on) = (s.hold.pinActive || s.hold.hostFlag) →
      exec (.corridorHold slot) s = .next (endOrder k
        (Result.done (match s.hold.state with | .idle => 0 | .active => 1 | .spent => 2))
        { s₀ with hold := { s.hold with hostFlag := on } })) ∧
    (s.hold.state = .idle → s.hold.pinActive = false → s.hold.hostFlag = false → on = true →
      (∀ c : Crossing, s.crossings[c].state ≠ .redBeforeWalk ∧ s.crossings[c].state ≠ .walk) → LinkInOrder s →
      exec (.corridorHold slot) s = .next (endOrder k (Result.done 1) { s₀ with
        hold := { s.hold with hostFlag := true, state := .active, timer := some (s.now +
          BitVec.ofNat 32 (1000 * (match s.plan.inForce with | some p => p.holdLimit | none => 120))) }
        journal := recorded s 0 (.hold .began .order)
        regs := { s.regs with attention := s.regs.attention ||| 16#5 } })) ∧
    (s.hold.state = .idle → s.hold.pinActive = false → s.hold.hostFlag = false → on = true →
      ∃ t, exec (.corridorHold slot) s = .next t ∧
        t.hold = { s.hold with hostFlag := true, state := .active, timer := some (s.now +
          BitVec.ofNat 32 (1000 * (match s.plan.inForce with | some p => p.holdLimit | none => 120))) } ∧
        t.regs.attention.getLsbD 4 = true ∧ (JournalRoom s (holdRecords s) → Holds s t 0 (.hold .began .order)) ∧ HoldBegins s t ∧
        (Unclaimed s k → Ends s t k (Result.done 1)) ∧ t.plan = s.plan ∧ t.mem = s.mem) ∧
    (s.hold.state = .active → s.hold.pinActive = false → s.hold.hostFlag = true → on = false →
      ∃ t, exec (.corridorHold slot) s = .next t ∧
        t.hold = { s.hold with hostFlag := false, state := .idle, timer := none } ∧
        t.regs.attention.getLsbD 4 = true ∧ (JournalRoom s 9 → Holds s t 0 (.hold .ended .order)) ∧
        CommitsEvaluated s t .idle ∧ Ends s t k (Result.done 0) ∧ t.lamps = s.lamps ∧ t.cues = s.cues ∧ t.ann = s.ann ∧
        t.plan = s.plan ∧ t.mem = s.mem) ∧
    (s.hold.state = .idle → s.hold.pinActive = false → s.hold.hostFlag = true → on = false →
      exec (.corridorHold slot) s =
        .next (endOrder k (Result.done 0) { s₀ with hold := { s.hold with hostFlag := false } })) ∧
    (s.hold.state = .spent → s.hold.pinActive = false → s.hold.hostFlag = true → on = false →
      (LinkInOrder s → exec (.corridorHold slot) s = .next (endOrder k (Result.done 0) { s₀ with
        hold := { s.hold with hostFlag := false, state := .idle, timer := none }
        journal := recorded s 0 (.hold .released .order)
        regs := { s.regs with attention := s.regs.attention ||| 16#5 } })) ∧
      ∃ t, exec (.corridorHold slot) s = .next t ∧
        t.hold = { s.hold with hostFlag := false, state := .idle, timer := none } ∧ t.regs.attention.getLsbD 4 = true ∧
        (JournalRoom s 1 → t.journal.fifo = s.journal.fifo ++ [⟨0, s.now, .hold .released .order⟩]) ∧
        Ends s t k (Result.done 0) ∧ t.crossings = s.crossings ∧ t.calls = s.calls ∧ t.proofs = s.proofs ∧ t.lamps = s.lamps ∧
        t.cues = s.cues ∧ t.ann = s.ann ∧ t.plan = s.plan ∧ t.mem = s.mem)

/-! ### The street line (chapters 2, 3, 6, 7) -/

/-- R18, R19, R22, R25, R29, R31: the 50 ms period. A round starts while the part is RUNNING with a site in force: its
first poll goes to the lowest configured address, a NORMAL poll with the commanded pair to an ACTIVE head, a STATION
poll to a station under no loop test with what the sending of that poll changes, the next TEST poll to one under a
loop test, but not as the first after a poll that carried a test. A LOST head is passed over, its probe count raised,
and at the 20th round probed, the count 0 again. A round that falls due while one is in progress waits; in LOADING, in
LOCKOUT and with no site none starts. A period that is not due does nothing (log 3, 32). -/
def Obligations.ScanRounds : Prop :=
  ∀ s : State, s.held = false →
    (2147483648 ≤ (s.now - s.line.nextRound).toNat → exec .scanRoundDue s = .next s) ∧
    ((s.now - s.line.nextRound).toNat < 2147483648 →
      (s.part ≠ .running ∨ s.site.inForce = none → exec .scanRoundDue s =
        .next { s with line := { s.line with nextRound := s.line.nextRound + 50#32 } }) ∧
      (∀ p, s.part = .running → s.site.inForce ≠ none → s.line.scanPos = some p → exec .scanRoundDue s =
        .next { s with line := { s.line with
          nextRound := s.line.nextRound + 50#32, roundsWaiting := s.line.roundsWaiting + 1 } }) ∧
      (∀ a : NodeAddr, s.part = .running → s.site.inForce ≠ none → s.line.scanPos = none → s.line.exchange = none →
        a ≠ 0 → (∀ b : NodeAddr, b < a → s.site.nodeMap[b] = .none) →
        (∀ c e, s.site.nodeMap[a] = .head c → s.line.nodes[a] = some e → e.lost = false →
          ∃ t, exec .scanRoundDue s = .next t ∧ t.line.scanPos = some (a.val + 1) ∧
            t.line.exchange = some ⟨a, .normal ((s.proofs[c].map ProofRec.commanded).getD ⟨.dark, .dark⟩)
              (if s.crossings[c].state = .clearance then s.crossings[c].countdown else 0)⟩ ∧
            t.crossings = s.crossings ∧ t.proofs = s.proofs ∧ t.ann = s.ann ∧ t.street = s.street ∧ t.mem = s.mem) ∧
        (∀ st e, s.site.nodeMap[a] = .station st → s.line.nodes[a] = some e → (∀ k n m, s.line.tests[st] ≠ .loop k n m) →
          ∃ t, exec .scanRoundDue s = .next t ∧ t.line.scanPos = some (a.val + 1) ∧
            t.line.exchange = some ⟨a, .station (stationPoll s st)⟩ ∧
            (let sent := stationPollSent st (stationPoll s st) s
             t.line.ackPending = sent.line.ackPending ∧ t.line.confirmed = sent.line.confirmed ∧
             t.line.tests = sent.line.tests ∧ t.line.lastPollTest = sent.line.lastPollTest ∧ t.cues = sent.cues ∧
             t.ann = sent.ann) ∧
            t.crossings = s.crossings ∧ t.calls = s.calls ∧ t.proofs = s.proofs ∧ t.street = s.street ∧ t.mem = s.mem) ∧
        (∀ c e, s.site.nodeMap[a] = .head c → s.line.nodes[a] = some e → e.lost = true → 20 ≤ e.probeCount + 1 →
          ∃ t, exec .scanRoundDue s = .next t ∧ t.line.scanPos = some (a.val + 1) ∧ t.line.exchange = some ⟨a, .probe⟩ ∧
            t.line.nodes = s.line.nodes.set a (some { e with probeCount := 0 }) ∧
            t.crossings = s.crossings ∧ t.proofs = s.proofs ∧ t.street = s.street ∧ t.mem = s.mem) ∧
        (∀ c e, s.site.nodeMap[a] = .head c → s.line.nodes[a] = some e → e.lost = true → e.probeCount + 1 < 20 →
          s.line.roundsWaiting = 0 →
          ∃ t, exec .scanRoundDue s = .next t ∧ t.line.nodes[a] = some { e with probeCount := e.probeCount + 1 } ∧
            (∀ x ∈ t.line.exchange, a < x.addr) ∧ t.crossings = s.crossings ∧ t.proofs = s.proofs ∧
            t.street = s.street ∧ t.mem = s.mem) ∧
        (∀ st e k n m, s.site.nodeMap[a] = .station st → s.line.nodes[a] = some e → s.line.tests[st] = .loop k n m →
          (¬(n = 0 ∧ s.line.lastPollTest[st] = true) →
            ∃ t, exec .scanRoundDue s = .next t ∧ t.line.scanPos = some (a.val + 1) ∧
              t.line.exchange = some ⟨a, .test (n + 1)⟩ ∧ t.line.tests = s.line.tests.set st (.loop k (n + 1) m) ∧
              t.line.lastPollTest[st] = true ∧ t.crossings = s.crossings ∧ t.ann = s.ann ∧ t.street = s.street ∧
              t.mem = s.mem) ∧
          (n = 0 → s.line.lastPollTest[st] = true →
            ∃ t, exec .scanRoundDue s = .next t ∧ t.line.exchange = some ⟨a, .station (stationPoll s st)⟩ ∧
              t.line.tests = s.line.tests ∧ t.line.lastPollTest[st] = false ∧ t.crossings = s.crossings ∧
              t.street = s.street ∧ t.mem = s.mem))))

/-- R16, R17, R20, R21, R24, R60, R81, R82, R108, R109, R110, R111, R112, R114, R117: a good head reply to a NORMAL
poll is counted, and its pair and lamp flags are recorded, with one LAMP record for each flag newly set. A pair that
is the one commanded and carried proves it, in STEADY it changes nothing; the first other pair in CHECKING takes one
from the allowance of 2, under a flash check too; a pair in conflict outside a flash check, or another pair in STEADY
or with the allowance spent, sends the crossing to FLASH with its FAULT record and the FAULT flag; that FAULT record comes
behind the LAMP records of the reply and before every other record of the event, the STATE record of the entry among
them; there a pending START ends ABORTED, and a pending STOP goes on to its target and is DONE. That entry leaves a proof that was not
WAIVED in CHECKING with an allowance of 2, under the flash check as long as the flashing pair is commanded. A pair not
carried by the poll as the one now commanded proves nothing, WAIVED makes no check but for a conflict, and under a
flash check a conflict is not looked for. Where the journal has room for every record of the reply, each stands in it.
A LOST head stays LOST at its first good reply to a PROBE; at the second in a run it is ACTIVE, with its NODE record,
and its proof is CHECKING with an allowance of 2, under the flash check exactly in FLASH. -/
def Obligations.HeadReplyProven : Prop :=
  (∀ (s : State) (a : NodeAddr) (c : Crossing) (e : NodeEntry) (old : ProofRec) (carried pv : Pair) (n : Nat) (b1 b2 : Byte),
    s.held = false → s.line.exchange = some ⟨a, .normal carried n⟩ → s.site.nodeMap[a] = .head c →
    s.line.nodes[a] = some e → e.lost = false → s.proofs[c] = some old → Pair.ofCode b1.toNat = some pv →
    let reply : List Byte :=
      [BitVec.ofNat 8 a.val, b1, b2, crc8 [BitVec.ofNat 8 a.val, b1, b2]]
    ∃ t, exec (.headReply reply) s = .next t ∧
      (∃ e', t.line.nodes[a] = some e' ∧ e'.lost = false ∧ e'.good = min 65535 (e.good + 1) ∧ e'.failRun = 0 ∧
        e'.violation = e.violation ∧ e'.miss = e.miss) ∧
      (∃ p, t.proofs[c] = some p ∧ p.proven = some pv ∧ p.lamps = b2.truncate 4) ∧
      (carried = old.commanded → pv = old.commanded → pv.conflict = false → old.state = .checking →
        t.crossings = s.crossings ∧
        ∃ p, t.proofs[c] = some p ∧ p.state = .steady ∧ p.allowance = 0 ∧ p.flashCheck = false ∧
          p.commanded = old.commanded) ∧
      (∀ j, j < 4 → b2.getLsbD j = true → old.lamps.getLsbD j = false → JournalRoom s 53 →
        Holds s t (c.val + 1) (.fault .lamp old.commanded (some pv) (b2.truncate 4))) ∧
      ((pv.conflict = false ∨ s.crossings[c].state = .flash ∨ (s.crossings[c].state = .maint ∧ old.flashCheck = true)) →
        (carried ≠ old.commanded ∨ old.state = .waived ∨ pv = old.commanded ∨
          (old.state = .checking ∧ 2 ≤ old.allowance)) →
        t.crossings = s.crossings ∧ t.calls = s.calls ∧ t.orders = s.orders ∧ t.part = s.part ∧
        (JournalRoom s 4 → t.journal.fifo = s.journal.fifo ++ List.replicate
          ((List.range 4).filter (fun j => b2.getLsbD j && !old.lamps.getLsbD j)).length
          ⟨c.val + 1, s.now, .fault .lamp old.commanded (some pv) (b2.truncate 4)⟩) ∧
        (carried ≠ old.commanded ∨ old.state ≠ .checking →
          t.proofs = s.proofs.set c (some { old with proven := some pv, lamps := b2.truncate 4 })) ∧
        (carried = old.commanded → old.state = .checking → pv ≠ old.commanded →
          t.proofs = s.proofs.set c (some { old with
            proven := some pv, lamps := b2.truncate 4, allowance := old.allowance - 1 }))) ∧
      (∀ kind, ((kind = .conflict ∧ pv.conflict = true) ∨ (kind = .mismatch ∧ pv.conflict = false ∧
            carried = old.commanded ∧ pv ≠ old.commanded ∧
            (old.state = .steady ∨ (old.state = .checking ∧ old.allowance ≤ 1)))) →
        s.crossings[c].state ≠ .flash → (s.crossings[c].state = .maint → old.flashCheck = false) →
        FlashEntered s t c ∧ t.regs.attention.getLsbD 2 = true ∧
        FlashProof t c (old.state = .waived) ∧
        (JournalRoom s (8 + (stationsOf s c).length) →
          Holds s t (c.val + 1) (.fault kind old.commanded (some pv) (b2.truncate 4)) ∧
          Holds s t (c.val + 1) (.state s.crossings[c].state .flash .fault) ∧
          (∀ o, s.crossings[c].order = some o → o.start = false → (o.target = .dark ∨ o.target = .maint) →
            Holds s t (c.val + 1) (.state .flash (if o.target = .dark then .dark else .maint) .order)) ∧
          ∃ between after, t.journal.fifo = s.journal.fifo ++
              List.replicate ((List.range 4).filter (fun j => b2.getLsbD j && !old.lamps.getLsbD j)).length
                ⟨c.val + 1, s.now, .fault .lamp old.commanded (some pv) (b2.truncate 4)⟩ ++
              ⟨c.val + 1, s.now, .fault kind old.commanded (some pv) (b2.truncate 4)⟩ ::
              between ++ ⟨c.val + 1, s.now, .state s.crossings[c].state .flash .fault⟩ :: after ∧
            ∀ o, s.crossings[c].order = some o → o.start = false → (o.target = .dark ∨ o.target = .maint) →
              ⟨c.val + 1, s.now, .state .flash (if o.target = .dark then .dark else .maint) .order⟩ ∈ after))) ∧
  (∀ (s : State) (a : NodeAddr) (c : Crossing) (e : NodeEntry) (old : ProofRec) (pv : Pair) (lamps : BitVec 4)
    (bytes : List Byte), s.held = false → s.line.exchange = some ⟨a, .probe⟩ → s.site.nodeMap[a] = .head c →
    s.line.nodes[a] = some e → e.lost = true → s.proofs[c] = some old →
    classify ⟨a, .probe⟩ bytes = some (.head pv lamps) →
    ∃ t e', exec (.headReply bytes) s = .next t ∧ t.line.nodes[a] = some e' ∧ e'.good = min 65535 (e.good + 1) ∧
      t.crossings = s.crossings ∧ t.calls = s.calls ∧ t.orders = s.orders ∧
      (e.goodRun + 1 < 2 → e'.lost = true ∧ t.proofs = s.proofs ∧ t.journal = s.journal) ∧
      (2 ≤ e.goodRun + 1 → e'.lost = false ∧ t.proofs = s.proofs.set c (some { old with
          state := .checking, allowance := 2, flashCheck := decide (s.crossings[c].state = .flash) }) ∧
        t.journal = recorded s (c.val + 1) (.node a.val true e'.good e'.violation e'.miss)))

/-- R108, R117, R118, R119, R120, R158, R168: a head that fails proof under the flash check, in FLASH or in MAINT, in
STEADY or with the allowance spent, takes the part into LOCKOUT: SAFE_OUT open, the FAULT flag, every crossing DARK
with no calls, no poll, no announcement and no flash check, every lamp off, every cue released, every OPEN slot ended
ABORTED; in a journal with room for every record of the event the FLASH_UNPROVEN record stands behind the LAMP
records of the reply and before every record of LOCKOUT, the STATE record of each crossing among them. Of the orders handed
over and not yet taken an ANNOUNCE still waits for the Engine; that the others are dropped is log 18 (DEDUCED). -/
def Obligations.SecondFailureLocksOut : Prop :=
  ∀ (s : State) (a : NodeAddr) (c : Crossing) (e : NodeEntry) (old : ProofRec) (carried pv : Pair) (n : Nat) (b1 b2 : Byte),
    s.held = false → s.line.exchange = some ⟨a, .normal carried n⟩ → s.site.nodeMap[a] = .head c →
    s.line.nodes[a] = some e → e.lost = false → s.proofs[c] = some old → Pair.ofCode b1.toNat = some pv →
    s.crossings[c].state = .flash ∨ (s.crossings[c].state = .maint ∧ old.flashCheck = true) →
    carried = old.commanded → pv ≠ old.commanded → old.state = .steady ∨ (old.state = .checking ∧ old.allowance ≤ 1) →
    ∃ t, exec (.headReply [BitVec.ofNat 8 a.val, b1, b2, crc8 [BitVec.ofNat 8 a.val, b1, b2]]) s = .next t ∧
      t.part = .lockout ∧ t.safeOut = false ∧ t.regs.attention.getLsbD 2 = true ∧
      t.line.exchange = none ∧ t.line.scanPos = none ∧ t.site.load = none ∧
      t.orders.handed = s.orders.handed.filter (fun h => decide (h.body.kind = .announce)) ∧ t.plan.waiting = none ∧
      t.cues.queue = [] ∧
      (∀ d : Crossing, t.crossings[d].state = .dark ∧ t.crossings[d].mode = .dark ∧ t.crossings[d].order = none ∧
        t.calls[d] = [] ∧ t.cues.cue[d] = .none ∧
        (∀ p ∈ t.proofs[d], p.commanded = ⟨.dark, .dark⟩ ∧ p.flashCheck = false)) ∧
      (∀ st : Station, t.lamps[st] = false ∧ t.ann.contexts[st] = none ∧ t.line.tests[st] = .none ∧
        t.press[st] = { last := none, inProgress := false, longTaken := false, stuck := false }) ∧
      (∀ i : SlotIx, (∀ h, t.orders.slots[i].state ≠ .occupied h) ∧
        (∀ u h, s.orders.slots[i] = ⟨u, .occupied h⟩ →
          t.orders.slots[i] = ⟨u, .finished h (Result.refused .aborted)⟩)) ∧
      (JournalRoom s 53 → Holds s t (c.val + 1) (.fault .flashUnproven old.commanded (some pv) (b2.truncate 4)) ∧
        ∃ after, t.journal.fifo = s.journal.fifo ++
            List.replicate ((List.range 4).filter (fun j => b2.getLsbD j && !old.lamps.getLsbD j)).length
              ⟨c.val + 1, s.now, .fault .lamp old.commanded (some pv) (b2.truncate 4)⟩ ++
            ⟨c.val + 1, s.now, .fault .flashUnproven old.commanded (some pv) (b2.truncate 4)⟩ :: after ∧
          ∀ d : Crossing, s.crossings[d].state ≠ .dark →
            ⟨d.val + 1, s.now, .state s.crossings[d].state .dark .fault⟩ ∈ after)

/-- R17, R20, R21, R25, R27, R30, R35, R42, R51, R71, R124, R146, R148-R150: a good station reply is counted and
delivered: the ambient level, the speaker proof, the press counter and the played counter are kept, and the state
sound of its poll is the confirmed sound. A new press, the button up or down, enters or merges a call of grade 1 and
lights the WAIT lamp, in VEH_GREEN with commit evaluated; it is absorbed in VEH_AMBER, RED_BEFORE_WALK and WALK and
ignored in DARK, MAINT and FLASH. The Engine moves the confirmed cursor by the clips played, rewinds the send cursor
at the answer to FLUSH, takes the free count as room, ends an announcement all played, and a LEVEL ends a tone test.
The first good reply of a LOST station is counted and not delivered; the second in a run makes it ACTIVE, with its
NODE record and the recall of its crossing ended, and is delivered. The slot byte 0 of an announcement of origin
STATION is log 39 (DESIGN CHOICE); where the journal has room for every record of the reply, each stands in it. -/
def Obligations.StationReplyDelivered : Prop :=
  (∀ (s : State) (a : NodeAddr) (st : Station) (c : Crossing) (e : NodeEntry) (q : StationPoll) (bytes : List Byte)
     (f : StationFields),
     s.held = false → s.line.exchange = some ⟨a, .station q⟩ → s.site.nodeMap[a] = .station st →
     s.line.nodes[a] = some e → e.lost = false → crossingOf s st = some c →
     classify ⟨a, .station q⟩ bytes = some (.station f) →
     ∃ t, exec (.stationReply bytes) s = .next t ∧
       (∃ e', t.line.nodes[a] = some e' ∧ e'.lost = false ∧ e'.good = min 65535 (e.good + 1) ∧ e'.failRun = 0 ∧
         e'.ambient = f.ambient ∧ e'.speaker = f.speaker) ∧
       t.press[st].last = some f.pressCounter ∧ (f.down = false → t.press[st].inProgress = false ∧ t.press[st].stuck = false) ∧
       t.ann.baseline[st] = some f.played ∧
       (s.press[st].last = none → f.down = false → t.calls = s.calls ∧ t.lamps = s.lamps) ∧
       (s.press[st].last ≠ none → s.press[st].last ≠ some f.pressCounter → s.press[st].stuck = false →
         f.down = false ∨ (f.hold < (crossingRec s c).longPress ∧ f.hold ≠ 255) →
         t.press[st].inProgress = f.down ∧ t.press[st].longTaken = false ∧
         (let entered : State := { s with calls := s.calls.set c (listWith s s.calls[c] (.station st) 1 false false) }
          let outcome := RecordBody.press st (listOutcome s.calls[c] (.station st) 1 false)
            (listGrade entered.calls[c] (.station st))
          (s.crossings[c].state = .startup ∨ s.crossings[c].state = .clearance ∨ s.crossings[c].state = .redAfterWalk →
            t.calls = entered.calls ∧ t.lamps = s.lamps.set st true ∧ (JournalRoom s 3 → Holds s t (c.val + 1) outcome)) ∧
          (s.crossings[c].state = .vehGreen → t.lamps = s.lamps.set st true ∧
            (JournalRoom s 3 → Holds s t (c.val + 1) outcome) ∧
            (commitDue entered c = false → t.calls = entered.calls ∧ t.crossings = s.crossings) ∧
            (commitDue entered c = true → listTells s.calls[c] (.station st) 1 = true →
              Enters s t c .vehAmber ⟨.amber, .dontWalk⟩ ∧ t.calls[c] = [] ∧
              ∃ v, t.crossings[c].service = some v ∧ v.entries = entered.calls[c]))) ∧
         (∀ v, s.crossings[c].service = some v →
           s.crossings[c].state = .vehAmber ∨ s.crossings[c].state = .redBeforeWalk ∨ s.crossings[c].state = .walk →
           t.calls = s.calls ∧
           t.crossings = s.crossings.set c { s.crossings[c] with
             service := some { v with grade := max v.grade 1, absorbed := min 255 (v.absorbed + 1) } } ∧
           t.lamps = (if s.crossings[c].state = .walk then s.lamps else s.lamps.set st true) ∧
           (JournalRoom s 3 → Holds s t (c.val + 1) (.press st .absorbed (max v.grade 1)))) ∧
         (s.crossings[c].state = .dark ∨ s.crossings[c].state = .maint ∨ s.crossings[c].state = .flash →
           t.calls = s.calls ∧ t.crossings = s.crossings ∧ t.lamps = s.lamps ∧
           (JournalRoom s 3 → Holds s t (c.val + 1) (.press st .ignored 0)))) ∧
       (s.press[st].last = some f.pressCounter → f.down = false →
         (∀ x, s.ann.contexts[st] = some x →
           let total := x.total (nameClips s st)
           let k := min (match s.ann.baseline[st] with | some b => (f.played + 256 - b) % 256 | none => 0)
             (x.send - x.confirmed)
           let y : Context := { x with
             confirmed := x.confirmed + k, send := (if q.cmd = .flush then x.confirmed + k else x.send)
             buffer := x.buffer.drop k }
           (y.send = total ∧ y.confirmed = total ∧ f.free = 4 → t.ann.contexts[st] = none ∧
             (x.origin = .station → JournalRoom s 1 →
               Holds s t (c.val + 1) (.announceEnd st .completed false 0 y.confirmed))) ∧
           (¬(y.send = total ∧ y.confirmed = total ∧ f.free = 4) → y.send = y.confirmed →
             (y.buffer.head? = some .fetchFault ∨ y.buffer.head? = some .formatFault) → t.ann.contexts[st] = none) ∧
           (¬(y.send = total ∧ y.confirmed = total ∧ f.free = 4) →
             ¬(y.send = y.confirmed ∧ (y.buffer.head? = some .fetchFault ∨ y.buffer.head? = some .formatFault)) →
             ∃ z, t.ann.contexts[st] = some z ∧ z.confirmed = y.confirmed ∧ z.priority = x.priority ∧
               z.origin = x.origin ∧ y.send ≤ z.send ∧ y.buffer <+: z.buffer)) ∧
         ((∀ b : NodeAddr, s.site.nodeMap[b] = .station st → b = a) → (∃ p, s.line.scanPos = some p ∧ a.val < p) →
           s.line.roundsWaiting = 0 → t.ann.room[st] = some (if q.cmd = .flush then 4 else f.free) ∧
             (q.cmd = .flush → t.line.flushPending[st] = false))) ∧
       (∀ tk e n, s.line.tests[st] = .tone tk (some e) → q.cmd = .toneTest → f.test = .level n → f.down = false →
         (∀ y ∈ s.ann.tallies, y.ticket ≠ tk) → s.press[st].last = some f.pressCounter →
         t.line.tests[st] = .none ∧ Ends s t tk (Result.done (16 * n))) ∧
       ((∀ b : NodeAddr, s.site.nodeMap[b] = .station st → b = a) → (∃ p, s.line.scanPos = some p ∧ a.val < p) →
         s.line.roundsWaiting = 0 →
         (∀ w, q.cmd = .sound w → t.line.confirmed[st] = some w) ∧
         ((∀ w, q.cmd ≠ .sound w) → t.line.confirmed[st] = s.line.confirmed[st]))) ∧
  (∀ (s : State) (a : NodeAddr) (st : Station) (c : Crossing) (e : NodeEntry) (q : StationPoll) (bytes : List Byte)
    (f : StationFields),
    s.held = false → s.line.exchange = some ⟨a, .station q⟩ → s.site.nodeMap[a] = .station st →
    s.line.nodes[a] = some e → e.lost = true → crossingOf s st = some c →
    classify ⟨a, .station q⟩ bytes = some (.station f) →
    ∃ t e', exec (.stationReply bytes) s = .next t ∧ t.line.nodes[a] = some e' ∧ e'.good = min 65535 (e.good + 1) ∧
      e'.failRun = 0 ∧
      (e.goodRun + 1 < 2 → e'.lost = true ∧ e'.ambient = e.ambient ∧ e'.speaker = e.speaker ∧ t.press = s.press ∧
        t.calls = s.calls ∧ t.crossings = s.crossings ∧ t.lamps = s.lamps ∧ t.ann.baseline = s.ann.baseline ∧
        t.journal = s.journal) ∧
      (2 ≤ e.goodRun + 1 → e'.lost = false ∧ e'.ambient = f.ambient ∧ e'.speaker = f.speaker ∧
        t.press[st].last = some f.pressCounter ∧ t.ann.baseline[st] = some f.played ∧ t.crossings[c].recalled = false ∧
        (JournalRoom s 8 → Holds s t (c.val + 1) (.node a.val true e'.good e'.violation e'.miss))))

/-- R23, R26, R30, R119, R123, R128, R179: what the polls make of the nodes. A head that has answered a NORMAL poll
shows its pair, its countdown beside FLASH_DONT_WALK alone, for one second more; a PROBE changes nothing. A station
that has answered a STATION poll has its volume, lamp and tactile output, and has acted on its audio command: the
clips in the free places of its queue, the queue emptied, the state sound and the cue store by R123 and R128; it
reports its counters, its button and what is left of its queue. A TEST poll restarts its watch alone. A failed
exchange leaves the node as it was or as having heard the poll, which of the two is free (log 23, DESIGN CHOICE). At
the end of its watch a head falls back to FLASH_AMBER and DARK and a station falls quiet, its volume then 0 and its
tone run over by the model's choice (DESIGN CHOICE, log 46) (that the watches run as a millisecond passes is log 2,
when they are reached log 32). With SAFE_OUT open a head shows nothing, and LOCKOUT and a reset leave it fallen back.
-/
def Obligations.NodesFollowPolls : Prop :=
  (∀ (s : State) (a : NodeAddr) (p pv : Pair) (n : Nat) (lamps : BitVec 4) (bytes : List Byte), s.held = false →
    s.line.exchange = some ⟨a, .normal p n⟩ →
    let heard : HeadNode :=
      { shown := p, countdown := if p.ped = .flashDontWalk then n else 0, watch := some (s.now + 1000#32) }
    (classify ⟨a, .normal p n⟩ bytes = some (.head pv lamps) → ∃ t, exec (.headReply bytes) s = .next t ∧
      t.street.stations = s.street.stations ∧
      (s.safeOut = true → t.safeOut = true → t.street.heads = s.street.heads.set a heard) ∧
      (s.safeOut = true → t.safeOut = false →
        ∀ b : NodeAddr, t.street.heads[b] = { shown := ⟨.flashAmber, .dark⟩, countdown := 0, watch := none })) ∧
    (∀ i ∈ ([.replyWindowExpiry, .replyCutOff] : List Instr), ∃ t, exec i s = .next t ∧
      t.street.stations = s.street.stations ∧
      (t.street.heads = s.street.heads ∨ t.street.heads = s.street.heads.set a heard))) ∧
  (∀ (s : State) (a : NodeAddr) (pv : Pair) (lamps : BitVec 4) (bytes : List Byte), s.held = false →
    s.line.exchange = some ⟨a, .probe⟩ → classify ⟨a, .probe⟩ bytes = some (.head pv lamps) →
    ∃ t, exec (.headReply bytes) s = .next t ∧ t.street = s.street) ∧
  (∀ (s : State) (a : NodeAddr) (k : Nat) (pattern bytes : List Byte), s.held = false →
    s.line.exchange = some ⟨a, .test k⟩ → classify ⟨a, .test k⟩ bytes = some (.echo pattern) →
    ∃ t, exec (.echoReply bytes) s = .next t ∧ t.street = { s.street with
      stations := s.street.stations.set a { s.street.stations[a] with watch := some (s.now + 1000#32) } }) ∧
  (∀ (s : State) (a : NodeAddr) (q : StationPoll) (f : StationFields) (bytes : List Byte), s.held = false →
    s.line.exchange = some ⟨a, .station q⟩ →
    (classify ⟨a, .station q⟩ bytes = some (.station f) → ∃ t, exec (.stationReply bytes) s = .next t ∧
      t.street.heads = s.street.heads ∧
      (∀ b : NodeAddr, b ≠ a → t.street.stations[b] = s.street.stations[b]) ∧
      (let n := s.street.stations[a]
       let m := t.street.stations[a]
       let queue : List Nat :=
         if q.cmd = .flush then []
         else if q.cmd = .clips then n.clipQueue ++ q.clips.take (4 - n.clipQueue.length) else n.clipQueue
       m.volume = q.volume ∧ m.lamp = q.lamp ∧ m.tactile = q.tactile ∧ m.watch = some (s.now + 1000#32) ∧
       m.played = f.played ∧ m.pressCounter = f.pressCounter ∧ m.down = f.down ∧
       m.clipQueue = queue.drop (queue.length - (4 - f.free)) ∧ (m.toneTest = true ↔ q.cmd = .toneTest) ∧
       (∀ w, q.cmd = .sound w → m.sound = w) ∧ (q.cmd = .toneTest → m.sound = .silent) ∧
       (q.cmd = .clips ∨ q.cmd = .flush ∨ q.cmd = .ackTone →
         m.sound = n.sound ∧ m.store = n.store ∧ m.cueLen = n.cueLen) ∧
       (q.cmd = .toneTest ∨ (∃ w, q.cmd = .sound w ∧ w ≠ .nameCue) →
         m.cueLen = 0 ∧ ∀ i : Fin 16, m.store[i] = none) ∧
       (q.cmd = .sound .nameCue → m.cueLen = q.cueLen ∧ ∀ i : Fin 16, m.store[i] =
         (if q.cuePos ≤ i.val then q.clips[i.val - q.cuePos]? else none).or
           (if n.sound = .nameCue ∧ n.cueLen = q.cueLen then n.store[i] else none)))) ∧
    (∀ i ∈ ([.replyWindowExpiry, .replyCutOff] : List Instr), ∃ t, exec i s = .next t ∧
      t.street.heads = s.street.heads ∧
      (∀ b : NodeAddr, b ≠ a → t.street.stations[b] = s.street.stations[b]) ∧
      (t.street = s.street ∨
        (t.street.stations[a].volume = q.volume ∧ t.street.stations[a].lamp = q.lamp ∧
          t.street.stations[a].tactile = q.tactile ∧ t.street.stations[a].watch = some (s.now + 1000#32) ∧
          t.street.stations[a].played = s.street.stations[a].played)))) ∧
  (∀ s : State, s.held = false → s.pending = [] → ∃ t, step s = .next t ∧ ∀ a : NodeAddr,
    (t.street.heads[a] = if s.street.heads[a].watch.any (fun w => decide ((s.now + 1 - w).toNat < 2147483648)) then
        { shown := ⟨.flashAmber, .dark⟩, countdown := 0, watch := none }
      else s.street.heads[a]) ∧
    (let n := s.street.stations[a]
     t.street.stations[a] = if n.watch.any (fun w => decide ((s.now + 1 - w).toNat < 2147483648)) then
        { clipQueue := [], sound := .silent, store := Vector.replicate 16 none, cueLen := 0, toneTest := false, volume := 0,
          lamp := false, tactile := false, played := n.played, pressCounter := n.pressCounter, down := n.down,
          watch := none }
      else n)) ∧
  (∀ (s : State) (a : NodeAddr), headShows s a = if s.safeOut then s.street.heads[a].shown else ⟨.dark, .dark⟩) ∧
  (∀ (s : State) (low : Bool), ∃ t, exec (.powerOnOrExternalReset low) s = .next t ∧
    ∀ b : NodeAddr, t.street.heads[b] = { shown := ⟨.flashAmber, .dark⟩, countdown := 0, watch := none })

/-- R15, R16, R17, R20, R21, R28, R31, R32, R40, R81, R82, R113, R147, R154: no reply is a miss; a reply cut off, or
one that is no good reply to the poll it answers, is a violation; each adds 1 to its count and delivers nothing; the
third failure in a run makes the node LOST with its NODE record. A head so lost has its FAULT record, the FAULT flag
and a WAIVED proof, and its crossing enters FLASH, where a pending START ends ABORTED and a pending STOP goes on to
its target; a station so lost loses its announcement, its test and its press in progress. Where the poll carried
clips, a flush is pending. The failure of the 32nd TEST poll ends the loop test. Bytes outside a reply window change
nothing; nor does the end of an exchange with none in progress (log 3). Where the journal has room for every record of
the event, the NODE and FAULT records stand in it, the FAULT record before the STATE record of the entry to FLASH and
that of a stop target. A running crossing whose stations are then all LOST begins recall (R51): its recall entry is made
at once, with commit evaluated, or in VEH_AMBER, RED_BEFORE_WALK and WALK not yet; any other crossing stays as it is. -/
def Obligations.FailedExchanges : Prop :=
  (∀ (s : State) (bytes : List Byte), s.held = false → exec (.strayLineBytes bytes) s = .next s ∧
    (s.line.exchange = none → exec (.headReply bytes) s = .next s ∧ exec (.stationReply bytes) s = .next s ∧
      exec (.echoReply bytes) s = .next s ∧ exec .replyWindowExpiry s = .next s ∧ exec .replyCutOff s = .next s)) ∧
  (∀ (s : State) (x : Exchange) (bytes : List Byte), s.held = false → s.line.exchange = some x → classify x bytes = none →
    exec (.headReply bytes) s = exec .replyCutOff s ∧ exec (.stationReply bytes) s = exec .replyCutOff s ∧
    exec (.echoReply bytes) s = exec .replyCutOff s) ∧
  (∀ (s : State) (x : Exchange) (e : NodeEntry) (missed : Bool), s.held = false → s.line.exchange = some x →
    s.line.nodes[x.addr] = some e → s.site.nodeMap[x.addr] ≠ .none →
    ∃ t, exec (if missed then .replyWindowExpiry else .replyCutOff) s = .next t ∧
      (∃ e', t.line.nodes[x.addr] = some e' ∧ e'.good = e.good ∧
        e'.miss = (if missed then min 65535 (e.miss + 1) else e.miss) ∧
        e'.violation = (if missed then e.violation else min 65535 (e.violation + 1)) ∧
        (e'.lost = true ↔ e.lost = true ∨ 2 ≤ e.failRun)) ∧
      (∀ st : Station, t.press[st].last = s.press[st].last) ∧ t.ann.baseline = s.ann.baseline ∧ t.mem = s.mem ∧
      (e.lost = false → 2 ≤ e.failRun → JournalRoom s 37 →
        ∃ r ∈ t.journal.fifo, r.time = s.now ∧ r.body = .node x.addr.val false e.good
          (if missed then e.violation else min 65535 (e.violation + 1))
          (if missed then min 65535 (e.miss + 1) else e.miss)) ∧
      (∀ c p, s.site.nodeMap[x.addr] = .head c → e.lost = false → 2 ≤ e.failRun → s.proofs[c] = some p →
        t.regs.attention.getLsbD 2 = true ∧
        (JournalRoom s (5 + (stationsOf s c).length) →
          Holds s t (c.val + 1) (.fault .headLost p.commanded p.proven p.lamps) ∧
          (s.crossings[c].state ≠ .flash → ∃ x y z, t.journal.fifo = s.journal.fifo ++ x ++
              ⟨c.val + 1, s.now, .fault .headLost p.commanded p.proven p.lamps⟩ ::
              y ++ ⟨c.val + 1, s.now, .state s.crossings[c].state .flash .fault⟩ :: z ∧
            ∀ o, s.crossings[c].order = some o → o.start = false → (o.target = .dark ∨ o.target = .maint) →
              ⟨c.val + 1, s.now, .state .flash (if o.target = .dark then .dark else .maint) .order⟩ ∈ z)) ∧
        (∃ r, t.proofs[c] = some r ∧ r.state = .waived ∧ r.allowance = 0 ∧ r.flashCheck = false ∧ r.proven = p.proven) ∧
        (s.crossings[c].state ≠ .flash → FlashEntered s t c) ∧
        (s.crossings[c].state = .flash → t.crossings = s.crossings ∧ t.orders = s.orders ∧
          ∃ r, t.proofs[c] = some r ∧ r.commanded = p.commanded)) ∧
      (∀ st q, s.site.nodeMap[x.addr] = .station st → x.poll = .station q → q.cmd = .clips →
        t.line.flushPending[st] = true) ∧
      (∀ st, s.site.nodeMap[x.addr] = .station st → e.lost = false → 2 ≤ e.failRun →
        t.ann.contexts[st] = none ∧ t.line.tests[st] = .none ∧ t.press[st].inProgress = false ∧
        t.press[st].longTaken = false ∧
        (∀ tk, s.line.tests[st].ticket? = some tk → (∀ y ∈ s.ann.tallies, y.ticket ≠ tk) →
          Ends s t tk (Result.refused .aborted (16 * 2)))) ∧
      (∀ st c, s.site.nodeMap[x.addr] = .station st → e.lost = false → 2 ≤ e.failRun → crossingOf s st = some c →
        let begins : Prop := s.crossings[c].state.running = true ∧ configured s c = true ∧
          (∀ su ∈ stationsOf s c, stationLost t su = true) ∧ s.crossings[c].recalled = false
        let list : List Entry := listWith s s.calls[c] .remote 1 false true
        let called : State := { s with
          crossings := s.crossings.set c { s.crossings[c] with recalled := true }, calls := s.calls.set c list }
        let later : Prop := s.crossings[c].state = .vehAmber ∨ s.crossings[c].state = .redBeforeWalk ∨
          s.crossings[c].state = .walk
        (¬begins → t.crossings = s.crossings ∧ t.calls = s.calls) ∧
        (begins → later → t.crossings = called.crossings ∧ t.calls = s.calls) ∧
        (begins → ¬later → commitDue called c = false ∨ listTells s.calls[c] .remote 1 = false →
          t.crossings = called.crossings ∧ t.calls = called.calls) ∧
        (begins → ¬later → commitDue called c = true → listTells s.calls[c] .remote 1 = true →
          Enters s t c .vehAmber ⟨.amber, .dontWalk⟩ ∧ t.crossings[c].recalled = true ∧ t.calls[c] = [] ∧
          (∃ v, t.crossings[c].service = some v ∧ v.entries = list) ∧ OthersKept s t c)) ∧
      (∀ st tk n sent exact, s.site.nodeMap[x.addr] = .station st → e.lost = true ∨ e.failRun < 2 → x.poll = .test n →
        s.line.tests[st] = .loop tk sent exact → 32 ≤ sent →
        t.line.tests[st] = .none ∧ Ends s t tk (Result.done (1 + 16 * exact))))

/-- R20: the runs and the node state. A good reply sets the failure run to 0 and raises the good run, and at 2 makes a
LOST node ACTIVE with both runs 0; a failed exchange sets the good run to 0 and raises the failure run, and at 3 makes
an ACTIVE node LOST with both runs 0 and the probe count 0; the runs saturate at 3; a newly configured node is ACTIVE
with runs and counts 0. -/
def Obligations.NodeStatesAndRuns : Prop :=
  (∀ e : NodeEntry, e.failRun ≤ 3 → e.goodRun ≤ 3 →
    (e.lost = false → e.onGood.lost = false ∧ e.onGood.failRun = 0 ∧ e.onGood.goodRun = min 3 (e.goodRun + 1)) ∧
    (e.lost = true → e.goodRun + 1 < 2 →
      e.onGood.lost = true ∧ e.onGood.failRun = 0 ∧ e.onGood.goodRun = e.goodRun + 1) ∧
    (e.lost = true → 2 ≤ e.goodRun + 1 → e.onGood.lost = false ∧ e.onGood.failRun = 0 ∧ e.onGood.goodRun = 0) ∧
    (∀ v, (e.lost = true → (e.onFail v).lost = true ∧ (e.onFail v).goodRun = 0 ∧
        (e.onFail v).failRun = min 3 (e.failRun + 1)) ∧
      (e.lost = false → e.failRun + 1 < 3 → (e.onFail v).lost = false ∧ (e.onFail v).goodRun = 0 ∧
        (e.onFail v).failRun = e.failRun + 1) ∧
      (e.lost = false → 3 ≤ e.failRun + 1 → (e.onFail v).lost = true ∧ (e.onFail v).goodRun = 0 ∧
        (e.onFail v).failRun = 0 ∧ (e.onFail v).probeCount = 0))) ∧
  (∀ (m : Vector NodeKind 64) (a : NodeAddr), m[a] ≠ .none → ∃ e, (nodeTableOf m)[a] = some e ∧ e.lost = false ∧
    e.failRun = 0 ∧ e.goodRun = 0 ∧ e.good = 0 ∧ e.violation = 0 ∧ e.miss = 0)

/-- R25, R29, R30, R122, R124, R125, R126, R129, R145: what a station's poll carries. The state sound wanted and the
tactile output follow its crossing's state and, in WALK, its cue; the volume is the smaller of the cap and the ambient
level plus 2, raised by 3 up to 15 in a WALK whose service is accessible, or the cap where the poll carries TONE_TEST
(log 20). The poll carries the first that is wanted of TONE_TEST, FLUSH, ACK_TONE, CLIPS and the state sound; the clips
are the next good places from the send cursor, at most two and at most the room, one where no good place stands
behind the first, of an announcement that is not suspended, in a state in which clips may sound, with no flush pending and no change of sound pending; a NAME_CUE carries
the length of the name phrase, the station's position and the one or two clips there. What its sending changes: ACK_TONE
clears the acknowledgement; TONE_TEST sets the confirmed sound to none, and the first one the end of its test; CLIPS
moves the send cursor and takes from the room; NAME_CUE moves the position on by 2, back to 0 at the phrase's end; and
whether the poll carried TONE_TEST is remembered. -/
def Obligations.StationPollsAndTheirSending : Prop :=
  ∀ (s : State) (st : Station) (c : Crossing) (x : CrossingRec), crossingOf s st = some c → crossingRec? s c = some x →
    (s.crossings[c].state = .dark ∨ s.crossings[c].state = .maint ∨ s.crossings[c].state = .flash →
      wantedSound s st = .silent ∧ (stationPoll s st).tactile = false) ∧
    (s.crossings[c].state = .startup ∨ s.crossings[c].state = .vehGreen ∨ s.crossings[c].state = .vehAmber ∨
        s.crossings[c].state = .redBeforeWalk ∨ s.crossings[c].state = .redAfterWalk →
      wantedSound s st = .locator ∧ (stationPoll s st).tactile = false) ∧
    (s.crossings[c].state = .clearance → wantedSound s st = .clearTick ∧ (stationPoll s st).tactile = false) ∧
    (s.crossings[c].state = .walk → (stationPoll s st).tactile = true ∧
      (s.cues.cue[c] = .awaiting → wantedSound s st = .silent) ∧
      (∀ p, s.cues.cue[c] = .pattern p → wantedSound s st = .walkPattern p) ∧
      (s.cues.cue[c] = .name → wantedSound s st = .nameCue)) ∧
    (let base := min x.volumeCap (((stationNode s st).getD default).ambient + 2)
     (stationPoll s st).volume =
       if (stationPoll s st).cmd = .toneTest then x.volumeCap
       else if s.crossings[c].state = .walk ∧ s.crossings[c].service.any Service.accessible = true then min 15 (base + 3)
       else base) ∧
    (let tone : Prop := ∃ k, (∃ e, s.line.tests[st] = .tone k (some e)) ∨
        (s.line.tests[st] = .tone k none ∧ s.line.lastPollTest[st] = false)
     let q := stationPoll s st
     (tone → q.cmd = .toneTest) ∧
     (¬tone → s.line.flushPending[st] = true → q.cmd = .flush) ∧
     (¬tone → s.line.flushPending[st] = false → s.line.ackPending[st] = true → q.cmd = .ackTone) ∧
     (¬tone → s.line.flushPending[st] = false → s.line.ackPending[st] = false →
       (offer s st ≠ [] → q.cmd = .clips ∧ q.clips = offer s st) ∧
       (offer s st = [] → q.cmd = .sound (wantedSound s st)))) ∧
    (offer s st ≠ [] → ∃ y r, s.ann.contexts[st] = some y ∧ y.suspended = false ∧ s.ann.room[st] = some r ∧
      (offer s st).length ≤ 2 ∧ (offer s st).length ≤ r ∧ s.line.flushPending[st] = false ∧
      s.line.confirmed[st] = some (wantedSound s st) ∧
      (s.crossings[c].state = .startup ∨ s.crossings[c].state = .vehGreen ∨ s.crossings[c].state = .vehAmber ∨
        s.crossings[c].state = .redBeforeWalk ∨ s.crossings[c].state = .redAfterWalk) ∧
      (offer s st).map Place.good <+: y.buffer.drop (y.send - y.confirmed)) ∧
    (∀ y r n1 n2 rest, s.ann.contexts[st] = some y → y.suspended = false → s.ann.room[st] = some r →
      s.line.flushPending[st] = false → s.line.confirmed[st] = some (wantedSound s st) →
      (s.crossings[c].state = .startup ∨ s.crossings[c].state = .vehGreen ∨ s.crossings[c].state = .vehAmber ∨
        s.crossings[c].state = .redBeforeWalk ∨ s.crossings[c].state = .redAfterWalk) →
      y.buffer.drop (y.send - y.confirmed) = .good n1 :: .good n2 :: rest → offer s st = [n1, n2].take r) ∧
    (∀ y r n1 rest, s.ann.contexts[st] = some y → y.suspended = false → s.ann.room[st] = some r →
      s.line.flushPending[st] = false → s.line.confirmed[st] = some (wantedSound s st) →
      (s.crossings[c].state = .startup ∨ s.crossings[c].state = .vehGreen ∨ s.crossings[c].state = .vehAmber ∨
        s.crossings[c].state = .redBeforeWalk ∨ s.crossings[c].state = .redAfterWalk) →
      y.buffer.drop (y.send - y.confirmed) = .good n1 :: rest →
      (rest = [] ∨ ∃ m more, rest = m :: more ∧ (m = .fetchFault ∨ m = .formatFault)) → offer s st = [n1].take r) ∧
    (stationPoll s st).lamp = s.lamps[st] ∧
    ((stationPoll s st).cmd = .sound .nameCue → (stationPoll s st).cueLen = s.site.names[c].length ∧
      (stationPoll s st).cuePos = s.cues.namePos[st] ∧
      (stationPoll s st).clips = (s.site.names[c].drop s.cues.namePos[st]).take 2) ∧
    ((stationPoll s st).cmd ≠ .sound .nameCue → (stationPoll s st).cueLen = 0 ∧ (stationPoll s st).cuePos = 0 ∧
      ((stationPoll s st).cmd ≠ .clips → (stationPoll s st).clips = [])) ∧
    (∀ q : StationPoll,
      let t := stationPollSent st q s
      (∀ su : Station,
        (t.line.lastPollTest[su] = if su = st then decide (q.cmd = .toneTest) else s.line.lastPollTest[su]) ∧
        (t.line.ackPending[su] = if su = st ∧ q.cmd = .ackTone then false else s.line.ackPending[su]) ∧
        (t.line.confirmed[su] = if su = st ∧ q.cmd = .toneTest then none else s.line.confirmed[su]) ∧
        (t.cues.namePos[su] = if su = st ∧ q.cmd = .sound .nameCue then
            (if s.site.names[c].length ≤ s.cues.namePos[st] + 2 then 0 else s.cues.namePos[st] + 2)
          else s.cues.namePos[su]) ∧
        (t.ann.contexts[su] = if su = st ∧ q.cmd = .clips then
            s.ann.contexts[st].map (fun (y : Context) => { y with send := y.send + q.clips.length })
          else s.ann.contexts[su]) ∧
        (t.ann.room[su] = if su = st ∧ q.cmd = .clips then s.ann.room[st].map (fun r => r - q.clips.length)
          else s.ann.room[su]) ∧
        (∀ k, su = st → q.cmd = .toneTest → s.line.tests[st] = .tone k none →
          t.line.tests[su] = .tone k (some (s.now + 3000#32))) ∧
        (su ≠ st ∨ q.cmd ≠ .toneTest ∨ (∀ k, s.line.tests[st] ≠ .tone k none) → t.line.tests[su] = s.line.tests[su])) ∧
      t.line.flushPending = s.line.flushPending ∧ t.line.exchange = s.line.exchange ∧ t.cues.cue = s.cues.cue ∧
      t.cues.queue = s.cues.queue ∧ t.crossings = s.crossings ∧ t.street = s.street)

/-! ### Calls and the walk cycle (chapters 3 and 4) -/

/-- R43, R46: a new entry at the tail of the list, with its fields, the count as its arrival time and, below grade 4, an
expiry time one wait limit on, that of the plan in force or 60 s: ENTERED, and the sequencer is told. R44: a merge:
the larger grade, the accessible and recall flags joined, arrival time and list position kept, the expiry time kept
while the grade stays below 4 and removed when it does not; UPGRADED when the grade rises or the accessible flag is
newly set, MERGED otherwise; and the sequencer is told when the grade rises. R47, R64: an entry whose expiry time the
count has reached becomes grade 4 with no expiry time, in its place, with an ESCALATED record; its crossing commits where
that is now due, and else nothing more happens. Before that time the command does nothing (log 3, 32). -/
def Obligations.CallsMergeAndEscalate : Prop :=
  (∀ (s : State) (es : List Entry) (src : Source) (g : Nat) (acc rec : Bool),
    es.find? (fun e => decide (e.source = src)) = none →
    listWith s es src g acc rec = es ++ [{
      source := src, grade := g, accessible := acc, recalled := rec, arrival := s.now
      expiry := if g < 4 then
          some (s.now + BitVec.ofNat 32 (1000 * (match s.plan.inForce with | some p => p.waitLimit | none => 60)))
        else none }] ∧
    listOutcome es src g acc = .entered ∧ listTells es src g = true) ∧
  (∀ (s : State) (es : List Entry) (src : Source) (e : Entry) (g : Nat) (acc rec : Bool),
    es.find? (fun e => decide (e.source = src)) = some e →
    (listWith s es src g acc rec).length = es.length ∧
    (∀ k, k < es.length → ∀ old, es[k]? = some old →
      (old.source ≠ src → (listWith s es src g acc rec)[k]? = some old) ∧
      (old.source = src → (listWith s es src g acc rec)[k]? = some { old with
        grade := max old.grade g, accessible := old.accessible || acc, recalled := old.recalled || rec,
        expiry := if max old.grade g < 4 then old.expiry else none })) ∧
    (listOutcome es src g acc = .upgraded ↔ e.grade < g ∨ (acc = true ∧ e.accessible = false)) ∧
    (listOutcome es src g acc = .merged ↔ ¬(e.grade < g ∨ (acc = true ∧ e.accessible = false))) ∧
    (listTells es src g = true ↔ e.grade < g)) ∧
  (∀ (s : State) (c : Crossing) (src : Source) (e : Entry) (x : Time), s.held = false →
     s.calls[c].find? (fun e => decide (e.source = src)) = some e → e.expiry = some x →
     (2147483648 ≤ (s.now - x).toNat → exec (.callExpiry c src) s = .next s) ∧
     ((s.now - x).toNat < 2147483648 →
       let list := s.calls[c].map (fun (e : Entry) => if e.source = src then { e with grade := 4, expiry := none } else e)
       let escalated : State := { s with
         calls := s.calls.set c list, journal := recorded s (c.val + 1) (.escalated src) }
       (commitDue escalated c = false → exec (.callExpiry c src) s = .next escalated) ∧
       (commitDue escalated c = true → ∃ t, exec (.callExpiry c src) s = .next t ∧
         Enters s t c .vehAmber ⟨.amber, .dontWalk⟩ ∧ t.calls[c] = [] ∧
         (∃ v, t.crossings[c].service = some v ∧ v.entries = list) ∧ OthersKept s t c ∧ StreetFrame s t ∧ t.lamps = s.lamps)))

/-- R35, R36, R37, R38, R39, R42, R71, R125, R155: what the Press Filter makes of a good reply of an ACTIVE station. A
press held to the threshold makes one long event: grade 3 and accessible, entered in STARTUP, VEH_GREEN, CLEARANCE and
RED_AFTER_WALK, with commit evaluated in VEH_GREEN, absorbed in VEH_AMBER, RED_BEFORE_WALK and WALK, ignored
elsewhere; taken, it asks for the spoken information where the link is FOLLOWING and the crossing has a usable
descriptor; the request has a place to play where the crossing has a name phrase or such a descriptor has a length,
which is so in every run (R4, R5, R155). A press and its long event may come
in one reply, and both are then taken in that order; that the commit which the press makes due comes between them is
log 33 (DESIGN CHOICE). An event that is taken sets the pending acknowledgement, one that is ignored sets none, and a
hold byte of 255 makes the station STUCK. Which of a reply and the information request the Engine takes first is log
9; where the journal has room for every record of the reply, each stands in it. -/
def Obligations.LongEventsAndAcknowledgements : Prop :=
  ∀ (s : State) (a : NodeAddr) (st : Station) (c : Crossing) (e : NodeEntry) (q : StationPoll) (bytes : List Byte)
    (f : StationFields),
    s.held = false → s.line.exchange = some ⟨a, .station q⟩ → s.site.nodeMap[a] = .station st →
    s.line.nodes[a] = some e → e.lost = false → crossingOf s st = some c →
    classify ⟨a, .station q⟩ bytes = some (.station f) →
    let fresh : Prop := s.press[st].last ≠ none ∧ s.press[st].last ≠ some f.pressCounter ∧ s.press[st].stuck = false
    let held : Prop := f.down = true ∧ (crossingRec s c).longPress ≤ f.hold
    let again : Prop := ¬fresh ∧ s.press[st].inProgress = true ∧ s.press[st].longTaken = false ∧ held
    let enters : Prop := s.crossings[c].state = .startup ∨ s.crossings[c].state = .clearance ∨
      s.crossings[c].state = .redAfterWalk
    let absorbs : Prop := s.crossings[c].state = .vehAmber ∨ s.crossings[c].state = .redBeforeWalk ∨
      s.crossings[c].state = .walk
    let ignores : Prop := s.crossings[c].state = .dark ∨ s.crossings[c].state = .maint ∨ s.crossings[c].state = .flash
    let pressed : List Entry := listWith s s.calls[c] (.station st) 1 false false
    let entered (es : List Entry) : State := { s with calls := s.calls.set c es }
    let amber (t : State) (es : List Entry) : Prop := Enters s t c .vehAmber ⟨.amber, .dontWalk⟩ ∧ t.calls[c] = [] ∧
      ∃ v, t.crossings[c].service = some v ∧ v.entries = es ∧ v.absorbed = 0
    let once : Prop := (∀ b : NodeAddr, s.site.nodeMap[b] = .station st → b = a) ∧
      (∃ p, s.line.scanPos = some p ∧ a.val < p) ∧ s.line.roundsWaiting = 0
    ∃ t, exec (.stationReply bytes) s = .next t ∧
      (again →
        let longed : List Entry := listWith s s.calls[c] (.station st) 3 true false
        let outcome : RecordBody := .press st (listOutcome s.calls[c] (.station st) 3 true) (listGrade longed (.station st))
        t.press[st].longTaken = true ∧
        (enters → t.calls = (entered longed).calls ∧ t.crossings = s.crossings ∧ t.lamps = s.lamps.set st true ∧
          (JournalRoom s 6 → Holds s t (c.val + 1) outcome)) ∧
        (s.crossings[c].state = .vehGreen → t.lamps = s.lamps.set st true ∧
          (JournalRoom s 6 → Holds s t (c.val + 1) outcome) ∧
          (commitDue (entered longed) c = false → t.calls = (entered longed).calls ∧ t.crossings = s.crossings) ∧
          (commitDue (entered longed) c = true → listTells s.calls[c] (.station st) 3 = true → amber t longed)) ∧
        (∀ v, s.crossings[c].service = some v → absorbs → t.calls = s.calls ∧
          t.crossings[c].service = some { v with grade := max v.grade 3, accessible := true } ∧
          t.lamps = (if s.crossings[c].state = .walk then s.lamps else s.lamps.set st true) ∧
          (JournalRoom s 6 → Holds s t (c.val + 1) (.press st .absorbed (max v.grade 3)))) ∧
        (ignores → t.calls = s.calls ∧ t.crossings = s.crossings ∧ t.lamps = s.lamps ∧
          (JournalRoom s 6 → Holds s t (c.val + 1) (.press st .ignored 0)))) ∧
      (fresh → held →
        let longed : List Entry := listWith s pressed (.station st) 3 true false
        t.press[st].longTaken = true ∧ (f.hold ≠ 255 → t.press[st].inProgress = true) ∧
        (enters → t.calls = (entered longed).calls ∧ t.crossings = s.crossings ∧ t.lamps = s.lamps.set st true ∧
          (JournalRoom s 6 →
            Holds s t (c.val + 1) (.press st (listOutcome s.calls[c] (.station st) 1 false)
              (listGrade pressed (.station st))) ∧
            Holds s t (c.val + 1) (.press st (listOutcome pressed (.station st) 3 true) (listGrade longed (.station st))))) ∧
        (s.crossings[c].state = .vehGreen → t.lamps = s.lamps.set st true ∧
          (commitDue (entered pressed) c = false →
            (commitDue (entered longed) c = false → t.calls = (entered longed).calls ∧ t.crossings = s.crossings) ∧
            (commitDue (entered longed) c = true → listTells pressed (.station st) 3 = true → amber t longed)) ∧
          (commitDue (entered pressed) c = true → listTells s.calls[c] (.station st) 1 = true → amber t pressed ∧
            ∃ v, t.crossings[c].service = some v ∧ v.accessible = true ∧ 3 ≤ v.grade)) ∧
        (∀ v, s.crossings[c].service = some v → absorbs → t.calls = s.calls ∧
          t.crossings[c].service = some { v with
            grade := max (max v.grade 1) 3, accessible := true, absorbed := min 255 (v.absorbed + 1) } ∧
          t.lamps = (if s.crossings[c].state = .walk then s.lamps else s.lamps.set st true)) ∧
        (ignores → t.calls = s.calls ∧ t.crossings = s.crossings ∧ t.lamps = s.lamps)) ∧
      (again ∨ (fresh ∧ held) → s.crossings[c].state.running = true → s.orders.link = .following →
        s.ann.contexts[st] = none → stationLost s st = false → usableInfo s c ≠ [] →
        (s.site.names[c] ≠ [] ∨ ∃ d ∈ usableInfo s c, d.len ≠ 0) →
        ∃ y, t.ann.contexts[st] = some y ∧ y.priority = 1 ∧ y.origin = .station ∧ y.hasName = true ∧
          y.descs = usableInfo s c ∧ y.confirmed = 0 ∧
          y.suspended = decide (s.crossings[c].state = .walk ∨ s.crossings[c].state = .clearance)) ∧
      (once → (again ∨ fresh) → ¬ignores → t.line.ackPending[st] = true) ∧
      (once → ¬(again ∨ fresh) ∨ ignores → t.line.ackPending[st] = s.line.ackPending[st]) ∧
      (f.down = true → f.hold = 255 → s.press[st].stuck = false →
        t.press[st].stuck = true ∧ t.press[st].inProgress = false ∧
        (JournalRoom s 6 → Holds s t (c.val + 1) (.press st .stuck 0)))

/-- R62, R64, R65, R66, R70, R108: at the end of its minimum green a crossing is marked elapsed, and commits exactly
when no hold is ACTIVE, its mode is a RUN mode, no STOP order is pending and its highest grade is above its mask: then
it is in VEH_AMBER for its amber time, with the service record of all its entries, and AMBER and DONT_WALK are to be
proven. -/
def Obligations.MinimumGreenEnds : Prop :=
  ∀ (s : State) (c : Crossing) (x : CrossingRec) (e : Time), s.held = false → crossingRec? s c = some x →
    s.crossings[c].state = .vehGreen → s.crossings[c].minGreen = some (e, false) →
    (s.now - e).toNat < 2147483648 →
    let due : Prop := s.hold.state ≠ .active ∧ (s.crossings[c].mode = .runFree ∨ s.crossings[c].mode = .runCoord) ∧
      (∀ o ∈ s.crossings[c].order, o.start = true) ∧ ∃ y ∈ s.calls[c], s.crossings[c].mask < y.grade
    (¬due → exec (.minGreenExpiry c) s = .next { s with
      crossings := s.crossings.set c { s.crossings[c] with minGreen := some (e, true) } }) ∧
    (due → ∃ t, exec (.minGreenExpiry c) s = .next t ∧
      t = { s with crossings := t.crossings, calls := s.calls.set c [], proofs := t.proofs, journal := t.journal } ∧
      t.journal = recorded s (c.val + 1) (.state .vehGreen .vehAmber .call) ∧
      Enters s t c .vehAmber ⟨.amber, .dontWalk⟩ ∧ OthersKept s t c ∧
      t.crossings[c].timer = some (s.now + BitVec.ofNat 32 (100 * x.amber)) ∧ t.crossings[c].minGreen = none ∧
      ∃ v, t.crossings[c].service = some v ∧ v.entries = s.calls[c] ∧ v.callsTaken = s.calls[c].length ∧ v.absorbed = 0 ∧
        (v.accessible = true ↔ ∃ y ∈ s.calls[c], y.accessible = true) ∧
        (∀ y ∈ s.calls[c], y.grade ≤ v.grade) ∧ (∃ y ∈ s.calls[c], y.grade = v.grade))

/-- R61, R62, R69, R78, R108: at the end of STARTUP or RED_AFTER_WALK the crossing enters VEH_GREEN with a new minimum
green and no service record, a pending START ends DONE, and in recall the recall entry is made (R51); with a STOP order pending it enters the stop target in its
place, with cause ORDER, and that order ends DONE with the target. Where the journal has room for every record of the
entry, the STATE record stands in it. The proof record follows the pair newly commanded. -/
def Obligations.VehGreenEntered : Prop :=
  ∀ (s : State) (c : Crossing) (x : CrossingRec) (e : Time) (startup : Bool), s.held = false → crossingRec? s c = some x →
    s.crossings[c].state = (if startup then .startup else .redAfterWalk) →
    s.crossings[c].timer = some e → (s.now - e).toNat < 2147483648 →
    let event : Instr := if startup then .startupExpiry c else .redAfterWalkExpiry c
    ((∀ o ∈ s.crossings[c].order, o.start = true) →
      ∃ t, exec event s = .next t ∧ Enters s t c .vehGreen ⟨.green, .dontWalk⟩ ∧
        t.crossings[c].minGreen = some (s.now + BitVec.ofNat 32 (1000 * x.minGreen), false) ∧
        t.crossings[c].timer = none ∧ t.crossings[c].service = none ∧ t.crossings[c].order = none ∧
        (∀ o ∈ s.crossings[c].order, Ends s t o.ticket (Result.done o.target.code)) ∧
        (JournalRoom s 1 → Holds s t (c.val + 1) (.state s.crossings[c].state .vehGreen .timer)) ∧
        (s.crossings[c].recalled = false → t.calls = s.calls) ∧
        (s.crossings[c].recalled = true → t.calls[c] = listWith s s.calls[c] .remote 1 false true) ∧
        t.crossings[c].recalled = s.crossings[c].recalled ∧ t.lamps = s.lamps ∧ t.cues = s.cues ∧
        OthersKept s t c ∧ StreetFrame s t) ∧
    (∀ o, s.crossings[c].order = some o → o.start = false → (o.target = .dark ∨ o.target = .maint) →
      ∃ t, exec event s = .next t ∧
        Enters s t c (if o.target = .dark then .dark else .maint)
          (if o.target = .dark then ⟨.dark, .dark⟩ else ⟨.flashAmber, .dark⟩) ∧
        t.crossings[c].mode = o.target ∧ t.crossings[c].order = none ∧ t.crossings[c].service = none ∧ t.calls[c] = [] ∧
        (NoTestOrTally s o.ticket → Ends s t o.ticket (Result.done (if o.target = .dark then 0 else 1))) ∧
        (JournalRoom s (2 + (stationsOf s c).length) → Holds s t (c.val + 1)
          (.state s.crossings[c].state (if o.target = .dark then .dark else .maint) .order)) ∧
        OthersKept s t c ∧ StreetFrame s t)

/-- R66, R67, R108, R131: at the end of amber the crossing enters RED_BEFORE_WALK, commanding RED and DONT_WALK for
its red-before-walk time; nothing else of the part changes but the record of it. At the end of RED_BEFORE_WALK with no
hold ACTIVE the crossing walks: RED and WALK, the walk end one walk time on, longer by the extension where the service
is accessible, a CALL_SERVED record, its cue AWAITING at the tail of the queue, its stations' lamps out and their
announcements suspended, with a flush pending at each station whose announcement was ACTIVE (R152). Both records are the sequencer's, and that the STATE record comes first is log 16 (DEDUCED);
that AMBER_EXPIRY before its time does nothing is log 3 and 32. -/
def Obligations.AmberAndWalk : Prop :=
  (∀ (s : State) (c : Crossing) (x : CrossingRec) (e : Time), s.held = false → crossingRec? s c = some x →
    s.crossings[c].state = .vehAmber → s.crossings[c].timer = some e →
    (2147483648 ≤ (s.now - e).toNat → exec (.amberExpiry c) s = .next s) ∧
    ((s.now - e).toNat < 2147483648 → ∃ t, exec (.amberExpiry c) s = .next t ∧
      t = { s with
        crossings := s.crossings.set c { s.crossings[c] with
          state := .redBeforeWalk, timer := some (s.now + BitVec.ofNat 32 (100 * x.redBefore)) }
        proofs := t.proofs, journal := recorded s (c.val + 1) (.state .vehAmber .redBeforeWalk .timer) } ∧
      Enters s t c .redBeforeWalk ⟨.red, .dontWalk⟩ ∧ OthersKept s t c)) ∧
  (∀ (s : State) (c : Crossing) (x : CrossingRec) (e : Time) (v : Service), s.held = false → crossingRec? s c = some x →
    s.crossings[c].state = .redBeforeWalk → s.crossings[c].timer = some e → (s.now - e).toNat < 2147483648 →
    s.hold.state ≠ .active → s.crossings[c].service = some v →
    ∃ t, exec (.redBeforeWalkExpiry c) s = .next t ∧ Enters s t c .walk ⟨.red, .walk⟩ ∧
      t.crossings[c].timer = some (s.now + BitVec.ofNat 32 (100 * (x.walkTime + if v.accessible then x.extension else 0))) ∧
      t.crossings[c].walkStart = some s.now ∧ t.crossings[c].walkCut = false ∧ t.crossings[c].service = some v ∧
      (JournalRoom s 2 → t.journal.fifo = s.journal.fifo ++
        [⟨c.val + 1, s.now, .state .redBeforeWalk .walk .timer⟩,
         ⟨c.val + 1, s.now, .callServed v.grade v.accessible v.callsTaken v.absorbed (s.now - v.oldest)⟩]) ∧
      t.cues = { s.cues with cue := s.cues.cue.set c .awaiting, queue := s.cues.queue ++ [c] } ∧
      (∀ st : Station, t.lamps[st] = (s.lamps[st] && !(stationsOf s c).contains st) ∧
        t.ann.contexts[st] = (if st ∈ stationsOf s c then
          s.ann.contexts[st].map (fun (y : Context) => { y with suspended := true }) else s.ann.contexts[st]) ∧
        t.line.flushPending[st] = (s.line.flushPending[st] ||
          ((stationsOf s c).contains st && s.ann.contexts[st].any (fun (y : Context) => !y.suspended)))) ∧
      t.calls = s.calls ∧ OthersKept s t c ∧ StreetFrame s t)

/-- R49, R102, R104, R108: at the end of RED_BEFORE_WALK under an ACTIVE hold, with no STOP order pending, the
crossing returns to VEH_GREEN with a new minimum green, its entries back in its list in their order, those whose
expiry time has passed (log 32) escalated, and no service record; a STATE record with cause HOLD, behind the ESCALATED
records of the entries; no cue is asked for. In recall the recall entry joins the list (R51). With a STOP order pending
it enters the stop target in place of VEH_GREEN, with its STATE record behind those ESCALATED records, and its calls
are then dropped, with their CALL_DROPPED record behind it (R54, R78). -/
def Obligations.HoldReturnsTheWalk : Prop :=
  ∀ (s : State) (c : Crossing) (x : CrossingRec) (e : Time) (v : Service), s.held = false → crossingRec? s c = some x →
    s.crossings[c].state = .redBeforeWalk → s.crossings[c].timer = some e → (s.now - e).toNat < 2147483648 →
    s.hold.state = .active → s.crossings[c].service = some v → s.calls[c] = [] → (v.entries.map Entry.source).Nodup →
    let expired (y : Entry) : Bool := y.expiry.any (fun z => decide ((s.now - z).toNat < 2147483648))
    ((∀ o ∈ s.crossings[c].order, o.start = true) →
    ∃ t, exec (.redBeforeWalkExpiry c) s = .next t ∧ Enters s t c .vehGreen ⟨.green, .dontWalk⟩ ∧
      t.crossings[c].minGreen = some (s.now + BitVec.ofNat 32 (1000 * x.minGreen), false) ∧
      t.crossings[c].service = none ∧ t.crossings[c].timer = none ∧
      (JournalRoom s (1 + v.entries.length) → Holds s t (c.val + 1) (.state .redBeforeWalk .vehGreen .hold) ∧
        t.journal.fifo = s.journal.fifo ++ (v.entries.filter expired).map
          (fun y => ⟨c.val + 1, s.now, .escalated y.source⟩) ++ [⟨c.val + 1, s.now, .state .redBeforeWalk .vehGreen .hold⟩]) ∧
      t.calls[c] = (if s.crossings[c].recalled then listWith s (returned s.now v.entries) .remote 1 false true
        else returned s.now v.entries) ∧
      (∀ st : Station, t.lamps[st] = (s.lamps[st] && !((stationsOf s c).contains st &&
        !v.entries.any (fun y => decide (y.source = .station st))))) ∧
      t.cues = s.cues ∧ t.ann = s.ann ∧ OthersKept s t c ∧ StreetFrame s t) ∧
    (∀ o, s.crossings[c].order = some o → o.start = false → (o.target = .dark ∨ o.target = .maint) →
      ∃ t, exec (.redBeforeWalkExpiry c) s = .next t ∧
        Enters s t c (if o.target = .dark then .dark else .maint)
          (if o.target = .dark then ⟨.dark, .dark⟩ else ⟨.flashAmber, .dark⟩) ∧
        t.crossings[c].mode = o.target ∧ t.crossings[c].order = none ∧ t.crossings[c].service = none ∧ t.calls[c] = [] ∧
        (NoTestOrTally s o.ticket → Ends s t o.ticket (Result.done (if o.target = .dark then 0 else 1))) ∧
        (JournalRoom s (2 + v.entries.length + (stationsOf s c).length) → ∃ x y, t.journal.fifo = s.journal.fifo ++ x ++
            ⟨c.val + 1, s.now, .state .redBeforeWalk (if o.target = .dark then .dark else .maint) .order⟩ :: y ∧
          (∀ w ∈ v.entries, expired w = true → ⟨c.val + 1, s.now, .escalated w.source⟩ ∈ x) ∧
          (v.entries ≠ [] → ⟨c.val + 1, s.now, .callDropped v.entries.length .notRunning⟩ ∈ y)) ∧
        t.cues = s.cues ∧ OthersKept s t c ∧ StreetFrame s t)

/-- R68, R69, R108, R134: at the walk end the crossing clears for its width over the walking speed, rounded up to
whole seconds, counting down from them, with its cue given up; each whole second takes 1 from the countdown and
changes nothing else; at the end it is in RED_AFTER_WALK for its red-after-walk time, with the countdown 0 and its
announcements resumed. -/
def Obligations.WalkClears : Prop :=
  ∀ (s : State) (c : Crossing) (x : CrossingRec) (e : Time), s.held = false → crossingRec? s c = some x →
    s.crossings[c].timer = some e →
    (s.crossings[c].state = .walk → (s.now - e).toNat < 2147483648 → ∀ v, s.crossings[c].service = some v →
      ∃ t n, exec (.walkEndExpiry c) s = .next t ∧ Enters s t c .clearance ⟨.red, .flashDontWalk⟩ ∧
        (0 < (if v.accessible then x.accessibleSpeed else x.normalSpeed) → 0 < x.width →
          (n - 1) * (if v.accessible then x.accessibleSpeed else x.normalSpeed) < x.width ∧
          x.width ≤ n * (if v.accessible then x.accessibleSpeed else x.normalSpeed)) ∧
        t.crossings[c].countdown = n ∧ t.crossings[c].timer = some (s.now + BitVec.ofNat 32 (1000 * n)) ∧
        t.crossings[c].walkStart = none ∧ t.crossings[c].walkCut = false ∧ t.crossings[c].service = some v ∧
        t.cues = { s.cues with cue := s.cues.cue.set c .none, queue := s.cues.queue.filter (fun d => decide (d ≠ c)) } ∧
        t.journal = recorded s (c.val + 1) (.state .walk .clearance .timer) ∧
        t.calls = s.calls ∧ t.lamps = s.lamps ∧ t.ann = s.ann ∧ OthersKept s t c ∧ StreetFrame s t) ∧
    (s.crossings[c].state = .clearance → 1 < s.crossings[c].countdown →
      (s.now - (e - BitVec.ofNat 32 (1000 * (s.crossings[c].countdown - 1)))).toNat < 2147483648 →
      exec (.countdownSecond c) s = .next { s with
        crossings := s.crossings.set c { s.crossings[c] with countdown := s.crossings[c].countdown - 1 } }) ∧
    (s.crossings[c].state = .clearance → (s.now - e).toNat < 2147483648 →
      ∃ t, exec (.clearanceExpiry c) s = .next t ∧ Enters s t c .redAfterWalk ⟨.red, .dontWalk⟩ ∧
        t.crossings[c].timer = some (s.now + BitVec.ofNat 32 (100 * x.redAfter)) ∧ t.crossings[c].countdown = 0 ∧
        t.crossings[c].service = s.crossings[c].service ∧
        t.journal = recorded s (c.val + 1) (.state .clearance .redAfterWalk .timer) ∧
        (∀ st : Station, t.ann.contexts[st] = (if st ∈ stationsOf s c then
          s.ann.contexts[st].map (fun (y : Context) => { y with suspended := false }) else s.ann.contexts[st])) ∧
        t.calls = s.calls ∧ t.lamps = s.lamps ∧ t.cues = s.cues ∧ OthersKept s t c ∧ StreetFrame s t)

/-! ### Plan, hold, cues and announcements (chapters 5, 7, 8) -/

/-- R63, R89, R90, R92: at each tick the position advances by 1 s and the next tick by 1000 ms; the step past the
cycle length wraps to 0 and adopts the plan waiting, with a PLAN record and its order DONE; then every window is
computed at the new position under the plan then in force. The computation of one crossing's window records the new
indication and mask, and tells its sequencer exactly when one of them changes; a crossing told of a mask records it,
uses it at once while it runs in RUN_COORD, and commits where that is now due, else does nothing more. Before its time
CYCLE_TICK does nothing (log 3, 32). -/
def Obligations.CycleTicks : Prop :=
  (∀ (s : State) (p : Plan) (e : Time), s.held = false → s.plan.inForce = some p → s.plan.nextTick = some e →
    (2147483648 ≤ (s.now - e).toNat → exec .cycleTick s = .next s) ∧
    ((s.now - e).toNat < 2147483648 → ∃ t, exec .cycleTick s = .next t ∧
      t.plan.nextTick = some (e + 1000#32) ∧ t.hold = s.hold ∧ t.lamps = s.lamps ∧ t.cues = s.cues ∧ t.ann = s.ann ∧
      t.mem = s.mem ∧
      (s.plan.position + 1 < p.cycle → t.plan.inForce = some p ∧ t.plan.waiting = s.plan.waiting ∧
        t.plan.position = s.plan.position + 1) ∧
      (p.cycle ≤ s.plan.position + 1 → t.plan.position = 0 ∧ t.plan.waiting = none ∧
        (s.plan.waiting = none → t.plan.inForce = some p) ∧
        (∀ q k, s.plan.waiting = some (q, k) → t.plan.inForce = some q ∧ Ends s t k (Result.done q.id.toNat) ∧
          (JournalRoom s 9 → Holds s t 0 (.plan q.id false)))) ∧
      (∀ q, t.plan.inForce = some q → ∀ c : Crossing,
        (t.plan.windowOpen[c] = true ↔ (t.plan.position + q.cycle - q.start[c]) % q.cycle < q.width[c]) ∧
        t.plan.mask[c] = (if t.plan.windowOpen[c] then 0 else q.closedMask)))) ∧
  (∀ (s : State) (p : Plan) (c : Crossing),
    let o : Bool := decide ((s.plan.position + p.cycle - p.start[c]) % p.cycle < p.width[c])
    let m : Nat := if o then 0 else p.closedMask
    let told : State := { s with
      plan := { s.plan with windowOpen := s.plan.windowOpen.set c o, mask := s.plan.mask.set c m } }
    (s.plan.windowOpen[c] = o → s.plan.mask[c] = m → computeWindow p c s = told) ∧
    (s.plan.windowOpen[c] ≠ o ∨ s.plan.mask[c] ≠ m →
      let masked : State := { told with crossings := s.crossings.set c { s.crossings[c] with
        planMask := m
        mask := if s.crossings[c].state.running = true ∧ s.crossings[c].mode = .runCoord then m
          else s.crossings[c].mask } }
      (commitDue masked c = false → computeWindow p c s = masked) ∧
      (commitDue masked c = true → Enters s (computeWindow p c s) c .vehAmber ⟨.amber, .dontWalk⟩ ∧
        (computeWindow p c s).calls[c] = [] ∧ (computeWindow p c s).plan = told.plan ∧
        (∃ v, (computeWindow p c s).crossings[c].service = some v ∧ v.entries = s.calls[c]) ∧
        OthersKept s (computeWindow p c s) c)))

/-- R96, R97, R100, R101, R103, R105, R106: a new level of HOLD_IN is taken after it has stood for 100 ms, and a
return before that is not; a qualified level that makes the request active in IDLE begins the hold, with a BEGIN
record of source PIN, sends a crossing in RED_BEFORE_WALK back to VEH_GREEN and cuts one in WALK; one that makes it
inactive ends an ACTIVE hold, with an END record and every crossing's commit evaluated, or releases a SPENT hold; in
IDLE, where the pin was low through a reset, its release is taken and nothing more happens. An edge to the level
already seen, and HOLD_IN_QUALIFIED before its time, do nothing (log 3, 32). Where the journal has room for every
record of the event, the HOLD record stands in it. -/
def Obligations.HoldInQualifies : Prop :=
  ∀ s : State, s.held = false →
    (∀ low, low = s.hold.rawActive → exec (.holdInEdge low) s = .next s) ∧
    (∀ low, low ≠ s.hold.rawActive → low ≠ s.hold.pinActive → exec (.holdInEdge low) s =
      .next { s with hold := { s.hold with rawActive := low, qualify := some (s.now + 100#32) } }) ∧
    (∀ low, low ≠ s.hold.rawActive → low = s.hold.pinActive → exec (.holdInEdge low) s =
      .next { s with hold := { s.hold with rawActive := low, qualify := none } }) ∧
    (∀ e, s.hold.qualify = some e → 2147483648 ≤ (s.now - e).toNat → exec .holdInQualified s = .next s) ∧
    (∀ e, s.hold.qualify = some e → (s.now - e).toNat < 2147483648 →
      (s.hold.hostFlag = true → exec .holdInQualified s =
        .next { s with hold := { s.hold with pinActive := s.hold.rawActive, qualify := none } }) ∧
      (s.hold.hostFlag = false → s.hold.state = .idle → s.hold.pinActive = false → s.hold.rawActive = true →
        (∀ c : Crossing, s.crossings[c].state ≠ .redBeforeWalk ∧ s.crossings[c].state ≠ .walk) →
        exec .holdInQualified s = .next { s with
          hold := { s.hold with
            pinActive := true, qualify := none, state := .active
            timer := some (s.now + BitVec.ofNat 32 (1000 * (match s.plan.inForce with | some p => p.holdLimit | none => 120))) }
          journal := recorded s 0 (.hold .began .pin)
          regs := { s.regs with attention := s.regs.attention ||| 16#5 } }) ∧
      (s.hold.hostFlag = false → s.hold.state = .idle → s.hold.pinActive = false → s.hold.rawActive = true →
        ∃ t, exec .holdInQualified s = .next t ∧
          t.hold = { s.hold with
            pinActive := true, qualify := none, state := .active
            timer := some (s.now + BitVec.ofNat 32 (1000 * (match s.plan.inForce with | some p => p.holdLimit | none => 120))) } ∧
          t.regs.attention.getLsbD 4 = true ∧ (JournalRoom s (holdRecords s) → Holds s t 0 (.hold .began .pin)) ∧ HoldBegins s t ∧
          t.plan = s.plan ∧ t.mem = s.mem) ∧
      (s.hold.hostFlag = false → s.hold.state = .active → s.hold.pinActive = true → s.hold.rawActive = false →
        ∃ t, exec .holdInQualified s = .next t ∧
          t.hold = { s.hold with pinActive := false, qualify := none, state := .idle, timer := none } ∧
          t.regs.attention.getLsbD 4 = true ∧ (JournalRoom s 9 → Holds s t 0 (.hold .ended .pin)) ∧
          CommitsEvaluated s t .idle ∧ t.lamps = s.lamps ∧ t.cues = s.cues ∧ t.ann = s.ann ∧ t.orders = s.orders ∧
          t.plan = s.plan ∧ t.mem = s.mem) ∧
      (s.hold.hostFlag = false → s.hold.state = .idle → s.hold.pinActive = true → s.hold.rawActive = false →
        exec .holdInQualified s = .next { s with hold := { s.hold with pinActive := false, qualify := none } }) ∧
      (s.hold.hostFlag = false → s.hold.state = .spent → s.hold.pinActive = true → s.hold.rawActive = false →
        exec .holdInQualified s = .next { s with
          hold := { s.hold with pinActive := false, qualify := none, state := .idle, timer := none }
          journal := recorded s 0 (.hold .released .pin)
          regs := { s.regs with attention := s.regs.attention ||| 16#5 } }))

/-- R68, R97, R98, R103, R105: at the end of its timer an ACTIVE hold is SPENT, with a SPENT record of the inputs then
active and the HOLD flag, and every crossing evaluates commit; in any other hold state nothing happens (log 3). A hold
that begins in WALK moves the walk end to the later of now and 4.0 s from the walk start and marks the walk cut; a
walk end that is then reached takes the crossing into CLEARANCE in the same event; which of two times is the later is
log 32. One that begins in RED_BEFORE_WALK does at once what the end of RED_BEFORE_WALK under a hold does. That a hold
which begins by its order or by its pin does this at each crossing is said with those. Where the journal has room for
every record of the event, the SPENT record stands in it. -/
def Obligations.HoldSpentOrBegunInWalk : Prop :=
  (∀ (s : State) (e : Time), s.held = false →
    (s.hold.state ≠ .active → exec .holdTimerExpiry s = .next s) ∧
    (s.hold.state = .active → s.hold.timer = some e → (s.now - e).toNat < 2147483648 →
      ∃ t, exec .holdTimerExpiry s = .next t ∧ t.hold = { s.hold with state := .spent, timer := none } ∧
        t.regs = { s.regs with attention := s.regs.attention ||| 16#5 } ∧
        (JournalRoom s 9 → Holds s t 0 (.hold .spent
          (if s.hold.pinActive then (if s.hold.hostFlag then .both else .pin) else .order))) ∧
        (∀ c : Crossing, s.crossings[c].state ≠ .vehGreen →
          t.crossings[c] = s.crossings[c] ∧ t.calls[c] = s.calls[c] ∧ t.proofs[c] = s.proofs[c]) ∧
        (∀ c : Crossing, s.crossings[c].state = .vehGreen → s.crossings[c].minGreen.any (fun g => g.2) = true →
          (s.crossings[c].mode = .runFree ∨ s.crossings[c].mode = .runCoord) → s.crossings[c].order = none →
          (∃ y ∈ s.calls[c], s.crossings[c].mask < y.grade) →
          t.crossings[c].state = .vehAmber ∧ t.calls[c] = []) ∧
        CommitsEvaluated s t .spent ∧
        t.lamps = s.lamps ∧ t.cues = s.cues ∧ t.ann = s.ann ∧ t.orders = s.orders ∧ t.plan = s.plan ∧ t.mem = s.mem)) ∧
  (∀ (s : State) (c : Crossing) (w : Time), s.crossings[c].state = .walk → s.crossings[c].walkStart = some w →
    (2147483648 ≤ (s.now - (w + 4000#32)).toNat → holdBegan c s = { s with
      crossings := s.crossings.set c { s.crossings[c] with timer := some (w + 4000#32), walkCut := true } }) ∧
    ((s.now - (w + 4000#32)).toNat < 2147483648 →
      Enters s (holdBegan c s) c .clearance ⟨.red, .flashDontWalk⟩ ∧ OthersKept s (holdBegan c s) c ∧
      (holdBegan c s).cues.cue[c] = .none ∧ (holdBegan c s).calls = s.calls)) ∧
  (∀ (s : State) (c : Crossing) (e : Time), s.held = false → s.crossings[c].state = .redBeforeWalk →
    s.crossings[c].timer = some e → (s.now - e).toNat < 2147483648 → s.hold.state = .active →
    exec (.redBeforeWalkExpiry c) s = live s (holdBegan c))

/-- R131, R132: the request at the head of the queue is granted its home pattern where no hearing neighbour holds it,
else the lowest-numbered pattern that none holds, else the name cue with the positions of its stations at 0; with its
CUE record; and no two neighbours come to hold one pattern. -/
def Obligations.CueGranted : Prop :=
  ∀ (s : State) (c : Crossing) (rest : List Crossing) (x : CrossingRec), s.held = false → s.cues.queue = c :: rest →
    crossingRec? s c = some x → 1 ≤ x.home → x.home ≤ 3 →
    let heldBy (n : Nat) : Prop := ∃ m ∈ s.site.hearing[c], ∃ p : Pattern, p.val + 1 = n ∧ s.cues.cue[m] = .pattern p
    ∃ t, exec .cueGrant s = .next t ∧ t.cues.queue = rest ∧ (∀ d : Crossing, d ≠ c → t.cues.cue[d] = s.cues.cue[d]) ∧
      (¬heldBy x.home → ∃ p : Pattern, p.val + 1 = x.home ∧ t.cues.cue[c] = .pattern p ∧
        t.journal = recorded s (c.val + 1) (.cue (some p)) ∧ t.cues.namePos = s.cues.namePos) ∧
      (∀ p : Pattern, heldBy x.home → ¬heldBy (p.val + 1) → (∀ r : Pattern, r < p → heldBy (r.val + 1)) →
        t.cues.cue[c] = .pattern p ∧ t.journal = recorded s (c.val + 1) (.cue (some p)) ∧ t.cues.namePos = s.cues.namePos) ∧
      ((∀ p : Pattern, heldBy (p.val + 1)) → t.cues.cue[c] = .name ∧ t.journal = recorded s (c.val + 1) (.cue none) ∧
        ∀ st : Station, t.cues.namePos[st] = (if st ∈ stationsOf s c then 0 else s.cues.namePos[st])) ∧
      (∀ p : Pattern, t.cues.cue[c] = .pattern p → ∀ m ∈ s.site.hearing[c], m ≠ c → t.cues.cue[m] ≠ .pattern p) ∧
      t = { s with cues := t.cues, journal := t.journal }

/-- R143, R144, R150, R151, R157: a phrase read of an announcement that is over is discarded; one of the announcement
in the context fills its places, in place order, with clips and with marks, and a bus error with marks alone; a mark
that stands next to be sent, with every clip before it confirmed, ends the announcement with its fault, and one of an
ANNOUNCE order counts in its tally, whose last count ends the order DONE. The slot byte 0 of an announcement of origin
STATION is log 39 (DESIGN CHOICE). CUE_GRANT on an empty queue, and the end of a read that is not outstanding, do
nothing (log 3). -/
def Obligations.PhraseReadsFill : Prop :=
  (∀ s : State, s.held = false → s.cues.queue = [] → exec .cueGrant s = .next s) ∧
  (∀ (s : State) (n : Nat) (answer : ReadEnd), s.held = false → s.ann.reads[n]? = none →
    exec (.phraseReadDone n answer) s = .next s) ∧
  (∀ (s : State) (n : Nat) (r : PhraseRead) (answer : ReadEnd), s.held = false → s.ann.reads[n]? = some r →
    let s₀ : State := { s with ann := { s.ann with reads := s.ann.reads.eraseIdx n } }
    ((s.ann.contexts[r.st] = none ∨ ∃ x, s.ann.contexts[r.st] = some x ∧ x.serial ≠ r.serial) →
      exec (.phraseReadDone n answer) s = .next s₀) ∧
    (∀ x d off, s.ann.contexts[r.st] = some x → x.serial = r.serial → x.readInFlight = true →
      x.fetchPlace (nameClips s r.st) = some (d, off) → x.buffer.length < 16 → off < d.len →
      let count := min (d.len - off) (min (4 - (d.addr + off) % 4) (16 - x.buffer.length))
      let filled : List Place := match answer with
        | .word w => (List.range count).map (fun k =>
            let clip := byteAt w ((d.addr + off) % 4 + k)
            if 1 ≤ clip ∧ clip ≤ 250 then .good clip else .formatFault)
        | .busError => List.replicate count .fetchFault
      (x.send ≠ x.confirmed ∨ (∃ clip, (x.buffer ++ filled).head? = some (.good clip)) →
        ∃ t y, exec (.phraseReadDone n answer) s = .next t ∧ t.ann.contexts[r.st] = some y ∧
          y.buffer = x.buffer ++ filled ∧ y.send = x.send ∧ y.confirmed = x.confirmed ∧
          y.priority = x.priority ∧ y.origin = x.origin ∧ t.crossings = s.crossings ∧ t.orders = s.orders ∧
          t.mem = s.mem) ∧
      (∀ out, x.send = x.confirmed →
        ((out = .fetchFault ∧ (x.buffer ++ filled).head? = some .fetchFault) ∨
          (out = .formatFault ∧ (x.buffer ++ filled).head? = some .formatFault)) →
        ∃ t, exec (.phraseReadDone n answer) s = .next t ∧ t.ann.contexts[r.st] = none ∧
          (∀ su : Station, su ≠ r.st → t.ann.contexts[su] = s.ann.contexts[su]) ∧
          t.crossings = s.crossings ∧ t.line = s.line ∧ t.mem = s.mem ∧
          (x.origin = .station →
            t.journal = recorded s (stationCrossingNum s r.st) (.announceEnd r.st out false 0 x.confirmed) ∧
            t.orders = s.orders) ∧
          (x.origin = .order none →
            t.journal = recorded s (stationCrossingNum s r.st) (.announceEnd r.st out true 0 x.confirmed) ∧
            t.orders = s.orders) ∧
          (∀ k y, x.origin = .order (some k) → s.ann.tallies.find? (fun z => decide (z.ticket = k)) = some y →
            let at' : Fin 7 := if out = .fetchFault then 3 else 4
            let counts := y.counts.set at' (y.counts[at'] + 1)
            (JournalRoom s 1 → Holds s t (stationCrossingNum s r.st)
              (.announceEnd r.st out true (k.slot.val + 1) x.confirmed)) ∧
            (y.toCome ≤ 1 → (∀ z ∈ t.ann.tallies, z.ticket ≠ k) ∧
              Ends s t k (Result.done (counts.toList.foldr (fun m acc => m + 16 * acc) 0))) ∧
            (1 < y.toCome → t.orders = s.orders ∧ ⟨k, y.toCome - 1, counts⟩ ∈ t.ann.tallies)))))

/-! ### Journal and status table (chapter 10) -/

/-- R170: a record enters the FIFO while it has a place and nothing was lost; after a loss it enters behind a GAP that
carries the lost count, if two places are free; else it is lost and counted. -/
def Obligations.RecordsEnterTheFifo : Prop :=
  ∀ (j : JournalWriter) (r : JournalRecord),
    (j.lost = 0 → j.fifo.length < 128 → j.enter r = { j with fifo := j.fifo ++ [r] }) ∧
    (j.lost = 0 → 128 ≤ j.fifo.length → j.enter r = { j with lost := 1 }) ∧
    (0 < j.lost → j.fifo.length ≤ 126 → j.enter r =
      { j with fifo := j.fifo ++ [⟨0, r.time, .gap j.lost⟩, r], lost := 0 }) ∧
    (0 < j.lost → 126 < j.fifo.length → j.enter r = { j with lost := min (j.lost + 1) 4294967295 })

/-- R160, R161, R171, R173: a descriptor found FILLED leaves the journal STALLED, to be read again every 1 s and at each
write to NUDGE, beside the look that the NUDGE makes due; a re-read that falls due while the descriptor is being read
is made when that read ends, once for all of them (log 13). A descriptor that passes its checks is the current buffer,
empty, and the journal is WRITING; one that fails a check, or a bus error, makes it FAULTED with LINK_FAULT. A read
that ends after the link has left FOLLOWING has the same effect, and the journal is then IDLE, or FAULTED where a check
fails (log 37). A re-read that is not due does nothing (log 3, 32). -/
def Obligations.DescriptorsOpened : Prop :=
  ∀ s : State, s.held = false →
    (s.journal.access = .descriptor → s.orders.link = .following →
      (∀ w0 w1 : Word, bitsAt w1 16 1 = 1 → ∃ t, exec (.descriptorReadDone (.words [w0, w1])) s = .next t ∧
        t = { s with journal := { s.journal with
          access := (if s.journal.rereadDue then .descriptor else .idle), state := .stalled, rereadDue := false
          nextReread := if s.journal.state = .stalled then s.journal.nextReread else some (s.now + 1000#32) } }) ∧
      (∀ w0 w1 : Word, bitsAt w1 16 1 = 0 → w0.toNat % 4 = 0 → 16 ≤ bitsAt w1 0 16 →
        w0.toNat + 4 * bitsAt w1 0 16 ≤ 0x1000000 →
        ∃ t, exec (.descriptorReadDone (.words [w0, w1])) s = .next t ∧ t = { s with journal := t.journal } ∧
          t.journal.state = .writing ∧ t.journal.fifo = s.journal.fifo ∧ t.journal.cursor = s.journal.cursor ∧
          t.journal.rereadDue = false ∧
          ∃ b, t.journal.current = some b ∧ b.addr = w0.toNat ∧ b.capacity = bitsAt w1 0 16 ∧ b.used = 0 ∧
            (b.last = true ↔ bitsAt w1 17 1 = 1)) ∧
      (∀ answer, answer = .busError ∨ (∃ w0 w1 : Word, answer = .words [w0, w1] ∧ bitsAt w1 16 1 = 0 ∧
          (w0.toNat % 4 ≠ 0 ∨ bitsAt w1 0 16 < 16 ∨ 0x1000000 < w0.toNat + 4 * bitsAt w1 0 16)) →
        ∃ t, exec (.descriptorReadDone answer) s = .next t ∧ t.journal.state = .faulted ∧
          t.journal.fifo = s.journal.fifo ∧ t.journal.current = s.journal.current ∧
          t.regs.attention.getLsbD 3 = true ∧ t.orders = s.orders ∧ BusFrame s t ∧ t.mem = s.mem)) ∧
    (s.journal.access = .descriptor → s.orders.link ≠ .following →
      (∀ w0 w1 : Word, bitsAt w1 16 1 = 1 → exec (.descriptorReadDone (.words [w0, w1])) s = .next { s with
        journal := { s.journal with access := .idle, state := .idle, nextReread := none, rereadDue := false } }) ∧
      (∀ w0 w1 : Word, bitsAt w1 16 1 = 0 → w0.toNat % 4 = 0 → 16 ≤ bitsAt w1 0 16 →
        w0.toNat + 4 * bitsAt w1 0 16 ≤ 0x1000000 →
        ∃ t b, exec (.descriptorReadDone (.words [w0, w1])) s = .next t ∧ t = { s with journal := t.journal } ∧
          t.journal.state = .idle ∧ t.journal.access = .idle ∧ t.journal.current = some b ∧ b.addr = w0.toNat ∧
          b.capacity = bitsAt w1 0 16 ∧ b.used = 0) ∧
      (∀ answer, answer = .busError ∨ (∃ w0 w1 : Word, answer = .words [w0, w1] ∧ bitsAt w1 16 1 = 0 ∧
          (w0.toNat % 4 ≠ 0 ∨ bitsAt w1 0 16 < 16 ∨ 0x1000000 < w0.toNat + 4 * bitsAt w1 0 16)) →
        ∃ t, exec (.descriptorReadDone answer) s = .next t ∧ t.journal.state = .faulted ∧
          t.regs.attention.getLsbD 3 = true ∧ t.orders = s.orders ∧ t.mem = s.mem)) ∧
    (∀ e, s.journal.state = .stalled → s.journal.nextReread = some e →
      (2147483648 ≤ (s.now - e).toNat → exec .stallRereadDue s = .next s) ∧
      ((s.now - e).toNat < 2147483648 → s.journal.access = .idle → exec .stallRereadDue s = .next { s with
        journal := { s.journal with access := .descriptor, nextReread := some (e + 1000#32) } }) ∧
      ((s.now - e).toNat < 2147483648 → s.journal.access ≠ .idle → exec .stallRereadDue s = .next { s with
        journal := { s.journal with rereadDue := true, nextReread := some (e + 1000#32) } })) ∧
    (∀ w, s.journal.state = .stalled → s.orders.link = .following → s.orders.stopping = false →
      let j : JournalWriter := if s.journal.access = .idle then { s.journal with access := .descriptor }
        else { s.journal with rereadDue := true }
      (s.orders.access ≠ .idle → exec (.nudge w) s =
        .next { s with orders := { s.orders with lookDue := true }, journal := j }) ∧
      (s.orders.access = .idle → s.orders.heldQueue = [] →
        ((∃ i : SlotIx, s.orders.slots[i].state = .free) → exec (.nudge w) s =
          .next { s with orders := { s.orders with access := .link, lookDue := false }, journal := j }) ∧
        ((∀ i : SlotIx, s.orders.slots[i].state ≠ .free) → exec (.nudge w) s =
          .next { s with orders := { s.orders with lookDue := true }, journal := j })))

/-- R169, R170, R172, R173, R183: while the journal is WRITING with no access under way, the next access is the close
of the buffer whose flush timer has expired, else the write of the head record where it fits, else a close. The head
record, written at the next free word, leaves the FIFO, and the flush timer starts at the first record of a buffer; a
failed write leaves it at the head, uncounted, and the journal FAULTED; that the words before the failed one have been
written and no other is log 24 (DESIGN CHOICE). A close writes used words, close time and the flags with FILLED, sets
JOURNAL_CLOSED, moves the cursor on, to 0 after the last descriptor, and opens the next descriptor at once. With the
link no longer FOLLOWING either access ends IDLE. The expiry of the flush timer closes the buffer at once where the
journal is WRITING with no access under way. When the flush timer starts and which time a close writes are log 13. The
records of one event enter the FIFO one after another, those of one block in the order of its rule, and those of
different blocks in a free order but where a rule gives one: a FAULT record before all that follows from its fault
(R109, R110, R111, R115, R118), a NODE record of a station found before what its delivery makes (R27), an ESCALATED
record before the change of its crossing's state (R47, R104), a stop target entered under a hold before the CALL_DROPPED
record (R104), a press before STUCK (R35), a commit before a press absorbed after it (R42); which block sends which, and
which rules give an order, are log 16 (DEDUCED). The words of a record: the header with
its kind, length and crossing, the count at its making, and the fields of its kind in their places; codes of
enumerations without a table are log 27, slot 0 of origin STATION log 39. -/
def Obligations.BuffersWritten : Prop :=
  (∀ (s : State) (b : Buffer), s.held = false → s.journal.current = some b →
     (∀ r rest, s.journal.access = .record → s.journal.fifo = r :: rest → s.journal.state = .writing →
       (∃ t y, exec (.recordWriteDone .ok) s = .next t ∧ t = { s with journal := t.journal, mem := t.mem } ∧
         t.mem = Memory.writeWords s.mem (b.addr + 4 * b.used) r.words ∧ t.journal.fifo = rest ∧
         t.journal.current = some y ∧ y.addr = b.addr ∧ y.used = b.used + r.length ∧ y.capacity = b.capacity ∧
         y.flushEnd = (if b.used = 0 then some (s.now + 1000#32) else b.flushEnd) ∧
         (s.orders.link = .following → t.journal =
           ({ s.journal with fifo := rest, access := .idle, current := some y }).pump s.now) ∧
         (s.orders.link ≠ .following → t.journal.state = .idle ∧ t.journal.access = .idle)) ∧
       (∀ n, ∃ t, exec (.recordWriteDone (.busError n)) s = .next t ∧ t.journal.fifo = s.journal.fifo ∧
         t.journal.current = some b ∧ t.journal.state = .faulted ∧ t.regs.attention.getLsbD 3 = true ∧
         t.mem = Memory.writeWords s.mem (b.addr + 4 * b.used) (r.words.take n) ∧ t.orders = s.orders ∧ BusFrame s t)) ∧
     (∀ time, s.journal.access = .close time → s.journal.state = .writing →
       (∃ t, exec (.bufferCloseWriteDone .ok) s = .next t ∧ t.journal.current = none ∧
         t.journal.cursor = (if b.last = true ∨ 64 ≤ s.journal.cursor + 1 then 0 else s.journal.cursor + 1) ∧
         t.regs.attention.getLsbD 1 = true ∧ t.journal.fifo = s.journal.fifo ∧
         HoldsWord t (descriptorAddr s + 8) (BitVec.ofNat 32 b.used) ∧ HoldsWord t (descriptorAddr s + 12) time ∧
         HoldsWord t (descriptorAddr s + 4) (BitVec.ofNat 32 (b.capacity + 65536 + 131072 * (if b.last then 1 else 0))) ∧
         SameOutside s t (descriptorAddr s + 4) 12 ∧ t.orders = s.orders ∧ BusFrame s t ∧
         (∀ l, s.orders.link = .following → s.journal.listAddr = some l →
           (l % 16 = 0 ∧ l + 1024 ≤ 0x1000000 → t.journal.state = .writing ∧ t.journal.access = .descriptor) ∧
           (l % 16 ≠ 0 ∨ 0x1000000 < l + 1024 → t.journal.state = .faulted ∧ t.regs.attention.getLsbD 3 = true)) ∧
         (s.orders.link ≠ .following → t.journal.state = .idle ∧ t.journal.access = .idle)) ∧
       (∀ n, ∃ t, exec (.bufferCloseWriteDone (.busError n)) s = .next t ∧ t.journal.state = .faulted ∧
         t.regs.attention.getLsbD 3 = true ∧ t.regs.attention.getLsbD 1 = s.regs.attention.getLsbD 1 ∧
         SameOutside s t (descriptorAddr s + 8) 8 ∧ t.orders = s.orders ∧ BusFrame s t)) ∧
     (∀ e, b.flushEnd = some e → b.flushExpired = false → s.journal.state = .writing → s.journal.access = .idle →
       (s.now - e).toNat < 2147483648 → exec .flushTimerExpiry s = .next { s with
         journal := { s.journal with access := .close s.now, current := some { b with flushExpired := true } } })) ∧
  (∀ (j : JournalWriter) (now : Time),
    (∀ b, j.state = .writing → j.access = .idle → j.current = some b →
      (b.flushExpired = true → j.pump now = { j with access := .close now }) ∧
      (b.flushExpired = false → j.fifo = [] → j.pump now = j) ∧
      (∀ r rest, b.flushExpired = false → j.fifo = r :: rest →
        (b.used + r.length ≤ b.capacity → j.pump now = { j with access := .record }) ∧
        (b.capacity < b.used + r.length → j.pump now = { j with access := .close now }))) ∧
    (j.state ≠ .writing ∨ j.access ≠ .idle ∨ j.current = none → j.pump now = j)) ∧
  (∀ r : JournalRecord,
    r.words.length = r.length ∧
    (let flag (x : Bool) : Nat := if x then 1 else 0
     let is (kind : Nat) (fields : List Word) : Prop :=
       r.words = BitVec.ofNat 32 (kind + 256 * (2 + fields.length) + 4096 * r.crossing) :: r.time :: fields
     match r.body with
     | .press st o g => is 1 [wordOf (st.val + 1) o.code g 0]
     | .callServed g acc n k w => is 2 [wordOf g (flag acc) n k, w]
     | .state old new cause => is 3 [wordOf old.code new.code cause.code 0]
     | .cue grant => is 4 [wordOf (match grant with | some p => p.val + 1 | none => 0) 0 0 0]
     | .announceEnd st o order slot clips => is 5 [wordOf (st.val + 1) o.code (flag order) slot, BitVec.ofNat 32 clips]
     | .node addr found good violation miss =>
       is 6 [BitVec.ofNat 32 (addr + 256 * flag found + 65536 * good), BitVec.ofNat 32 (violation + 65536 * miss)]
     | .fault kind p proven lamps =>
       is 7 [wordOf kind.code p.code (match proven with | some v => v.code | none => 255) lamps.toNat]
     | .hold event source => is 8 [wordOf event.code source.code 0 0]
     | .plan id superseded => is 9 [BitVec.ofNat 32 (id.toNat + 65536 * flag superseded)]
     | .callDropped n cause => is 10 [wordOf n cause.code 0 0]
     | .escalated source => is 11 [wordOf (match source with | .station st => st.val + 1 | .remote => 0) 0 0 0]
     | .gap lost => is 12 [BitVec.ofNat 32 lost])) ∧
  (∀ (s : State) (f : State → State), s.held = false →
    let made : State := f { s with made := [] }
    ∃ (order : List JournalRecord) (drawn : Nat),
      live s f = .next { made with
        journal := order.foldl (fun (j : JournalWriter) (r : JournalRecord) => (j.enter r).pump made.now) made.journal
        freeCount := drawn, made := s.made } ∧
      order.Perm made.made ∧
      (∀ b : Producer, order.filter (fun r => decide (r.producer = b)) = made.made.filter (fun r => decide (r.producer = b))) ∧
      ∀ some : JournalRecord → Bool, (made.made.filter some).Pairwise (fun a b => a.precedes b = true) →
        order.filter some = made.made.filter some) ∧
  (∀ a b : JournalRecord, a.precedes b = true ↔ a.producer = b.producer ∨
    (∃ kind p proven lamps, a.body = .fault kind p proven lamps) ∨
    (∃ addr good violation miss, a.body = .node addr true good violation miss) ∨
    (a.crossing = b.crossing ∧
      ((∃ source old new cause, a.body = .escalated source ∧ b.body = .state old new cause) ∨
       (∃ new n cause, a.body = .state .redBeforeWalk new .order ∧ b.body = .callDropped n cause) ∨
       (∃ old new cause st g, a.body = .state old new cause ∧ b.body = .press st .absorbed g))) ∨
    (∃ st out g su h, a.body = .press st out g ∧ out ≠ .stuck ∧ b.body = .press su .stuck h))

/-- R58, R175, R176, R183: in FOLLOWING, with no stop and no write in progress, the 250 ms period starts a write of the
table and raises the generation by one; each of its words is the value its owner then holds, and the generation is
raised again before its last write. A bus error stops status writing with LINK_FAULT and raises the generation once
more, but the table in memory keeps the odd one: the first word stands written, the last does not, and for a word
between them the bus decides (the command's operand, log 24). The words: header, 8 crossing records of 5, 32 station
records of 3, and the hearing table; a crossing or station not configured is all 0. That each word is the value at its
own write is log 14; the plan id of no plan is log 40; a period that is not due does nothing (log 3, 32). -/
def Obligations.StatusTableWritten : Prop :=
  ∀ s : State, s.held = false →
    (∀ e a, s.status.nextDue = some e → s.status.addr = some a → s.status.write = none →
      (2147483648 ≤ (s.now - e).toNat → exec .statusPeriodDue s = .next s) ∧
      ((s.now - e).toNat < 2147483648 →
        (s.orders.link = .following → s.status.stopped = false → exec .statusPeriodDue s = .next { s with
          status := { s.status with
            nextDue := some (e + 250#32), generation := s.status.generation + 1, write := some (a, 0) } }) ∧
        (s.orders.link ≠ .following ∨ s.status.stopped = true → exec .statusPeriodDue s = .next { s with
          status := { s.status with nextDue := some (e + 250#32) } }))) ∧
    (∀ a n, s.status.write = some (a, n) →
      (n < 142 → exec (.statusWordWriteDone .ok) s = .next { s with
        mem := Memory.writeWord s.mem (a + 4 * n) (statusWord s n)
        status := { s.status with write := some (a, n + 1) } }) ∧
      (n = 142 → exec (.statusWordWriteDone .ok) s = .next { s with
        mem := Memory.writeWord s.mem (a + 568) (statusWord s 142)
        status := { s.status with write := some (a, 143), generation := s.status.generation + 1 } }) ∧
      (n = 143 → exec (.statusWordWriteDone .ok) s = .next { s with
        mem := Memory.writeWord s.mem a s.status.generation
        status := { s.status with write := none } }) ∧
      (∀ landed, n ≤ 143 → ∃ t, exec (.statusWordWriteDone (.busError landed)) s = .next t ∧ t.status.stopped = true ∧
        t.status.write = none ∧ t.status.generation = (if n < 143 then s.status.generation + 1 else s.status.generation) ∧
        t.regs.attention.getLsbD 3 = true ∧
        (n = 0 → t.mem = Memory.writeWord s.mem a s.status.generation) ∧ (n = 143 → t.mem = s.mem) ∧
        (0 < n → landed = false → t.mem = s.mem) ∧
        (0 < n → n < 143 → landed = true → t.mem = Memory.writeWord s.mem (a + 4 * n) (statusWord s n)) ∧
        t.orders = s.orders ∧ t.journal = s.journal ∧ BusFrame s t)) ∧
    statusWord s 0 = s.status.generation ∧ statusWord s 1 = s.now ∧
    statusWord s 2 = wordOf s.part.code s.orders.link.code s.journal.state.code s.hold.state.code ∧
    statusWord s 3 = BitVec.ofNat 32 s.plan.position ∧
    statusWord s 4 = (match s.plan.inForce with | some p => BitVec.ofNat 32 (p.id.toNat + 65536) | none => 0) ∧
    (∀ c : Crossing,
      (crossingRec? s c = none → ∀ k, k < 5 → statusWord s (5 + 5 * c.val + k) = 0) ∧
      (∀ x, crossingRec? s c = some x →
        let r := s.crossings[c]
        let flag (b : Bool) : Nat := if b then 1 else 0
        let ends : Option Time := if r.state = .dark ∨ r.state = .maint ∨ r.state = .flash then none
          else if r.state = .vehGreen then r.minGreen.bind (fun m => if m.2 then none else some m.1) else r.timer
        let remaining : Nat := match ends with
          | some e => if (s.now - e).toNat < 2147483648 then 0 else ((e - s.now).toNat + 99) / 100
          | none => 0
        statusWord s (5 + 5 * c.val) = wordOf r.mode.code r.state.code r.mask s.cues.cue[c].code ∧
        statusWord s (5 + 5 * c.val + 1) = BitVec.ofNat 32 (remaining + 65536 * s.calls[c].length
          + 16777216 * flag s.plan.windowOpen[c] + 33554432 * flag r.recalled) ∧
        (∀ e p, headNode s c = some e → s.proofs[c] = some p →
          statusWord s (5 + 5 * c.val + 2) = wordOf (if e.lost then 2 else 1) p.state.code
            (match p.proven with | some q => q.code | none => 255) p.lamps.toNat ∧
          statusWord s (5 + 5 * c.val + 3) = BitVec.ofNat 32 (e.good + 65536 * e.violation) ∧
          statusWord s (5 + 5 * c.val + 4) = BitVec.ofNat 32 e.miss))) ∧
    (∀ st : Station,
      (stationRec? s st = none → ∀ k, k < 3 → statusWord s (45 + 3 * st.val + k) = 0) ∧
      (∀ x e, stationRec? s st = some x → stationNode s st = some e →
        let flag (b : Bool) : Nat := if b then 1 else 0
        statusWord s (45 + 3 * st.val) = wordOf (if e.lost then 2 else 1) x.kerb e.ambient
          (flag e.speaker + 2 * flag s.press[st].stuck + 4 * flag s.lamps[st] +
            16 * (match s.ann.contexts[st] with | none => 0 | some y => if y.suspended then 2 else 1)) ∧
        statusWord s (45 + 3 * st.val + 1) = BitVec.ofNat 32 (e.good + 65536 * e.violation) ∧
        statusWord s (45 + 3 * st.val + 2) = BitVec.ofNat 32 e.miss)) ∧
    (∀ c m : Crossing,
      ((statusWord s (141 + c.val / 4)).getLsbD (8 * (c.val % 4) + m.val) = true ↔ m ∈ s.site.hearing[c]))

/-- The frame of shared memory: a command that writes nothing there leaves every byte as it reads, and so does every
other command but the ends of the part's own writes. The memory the part has written is the model's view of the window
(log 1). -/
def Obligations.OnlyBusWritesChangeMemory : Prop :=
  ∀ (i : Instr) (s t : State), exec i s = .next t →
    (∀ answer, i ≠ .orderTakenWriteDone answer) → (∀ answer, i ≠ .resultDetailWriteDone answer) →
    (∀ answer, i ≠ .resultStateWriteDone answer) → (∀ answer, i ≠ .recordWriteDone answer) →
    (∀ answer, i ≠ .bufferCloseWriteDone answer) → (∀ answer, i ≠ .statusWordWriteDone answer) → SameMemory s t

/-! ### Invariants that every step keeps -/

/-- The written bytes of shared memory stay in canonical form. The written bytes and their form are the model's (log
1). -/
def Obligations.MemoryStaysCanonical : Prop := ∀ s t : State, MemoryCanonical s → step s = .next t → MemoryCanonical t

/-- R59: the commanded pair follows the state of its crossing, and no conflicting pair is commanded or sent. -/
def Obligations.CommandedPairFollowsState : Prop :=
  ∀ s t : State, CommandedFollowsState s → step s = .next t → CommandedFollowsState t

/-- R119, R120: SAFE_OUT is closed in RUNNING alone, and LOCKOUT ends only by a reset. What stands in LOCKOUT has among
it that of the orders handed over only an ANNOUNCE waits for its owner, which is log 18 (DEDUCED). -/
def Obligations.LockoutStands : Prop :=
  ∀ s t : State, LockoutHolds s → step s = .next t → LockoutHolds t ∧
    (s.part = .lockout → t.part = .lockout ∨ (∃ low rest, s.pending = .powerOnOrExternalReset low :: rest) ∨
      ∃ rest, s.pending = .heldInReset :: rest)

/-- R130, R132, R134: a crossing has a cue only in WALK, the queue holds the AWAITING crossings, and hearing
neighbours never hold one pattern. -/
def Obligations.NeighboursNeverSharePatterns : Prop := ∀ s t : State, CuesSound s → step s = .next t → CuesSound t

/-- R140, R169, R170, R175, R176: the journal FIFO and the prefetch buffers stay within their sizes, the cursors of
every context in order, and the generation count odd exactly while a write of the status table is in progress before
its last word. Between events no record waits to enter the FIFO: that field is the model's (log 16). -/
def Obligations.BuffersStayInBounds : Prop :=
  ∀ s t : State, step s = .next t →
    (JournalBounded s → JournalBounded t) ∧ (CursorsInOrder s → CursorsInOrder t) ∧
    (GenerationOddWhileWriting s → GenerationOddWhileWriting t) ∧ (s.made = [] → t.made = [])

/-- R8, R9, R13, R164, R165: the HELD slots stay the ones that wait to be written, and the derived tables of the site
follow the site in force. R160, R166, R167: in FOLLOWING no LINK_RESTART waits, no anchor is being read, and the link has
not to stop but for an access under way; nor does a LINK_RESTART wait for an anchor read. -/
def Obligations.OrderAndSiteTablesStayTrue : Prop :=
  (∀ s t : State, HeldSlotsQueued s → step s = .next t → HeldSlotsQueued t) ∧
  (∀ s t : State, SiteTablesFollow s → step s = .next t → SiteTablesFollow t) ∧
  (∀ s t : State, LinkInOrder s → step s = .next t → LinkInOrder t)

/-- Every invariant holds right after reset. -/
def Obligations.InvariantsHoldAtReset : Prop :=
  MemoryCanonical State.reset ∧ CommandedFollowsState State.reset ∧ LockoutHolds State.reset ∧ CuesSound State.reset ∧
  JournalBounded State.reset ∧ CursorsInOrder State.reset ∧ GenerationOddWhileWriting State.reset ∧
  HeldSlotsQueued State.reset ∧ SiteTablesFollow State.reset ∧ LinkInOrder State.reset ∧ State.reset.made = []
end

