-- ==== Sys2Proof/Laws/Frames.lean ====
section
/-! SUPPORT. Three frames, from the narrowest to the widest, and for every shared operation the narrowest one it keeps to: what it can
change, said once. -/

namespace Sys2Proof.Machine

/-- The attention flags only rise, and nothing else of the registers changes. -/
structure RegsRise (r q : Registers) : Prop where
  anchor : q.anchor = r.anchor
  start : q.start = r.start
  enables : q.enables = r.enables
  attention : ∀ k, r.attention.getLsbD k = true → q.attention.getLsbD k = true

theorem RegsRise.refl (r : Registers) : RegsRise r r := ⟨rfl, rfl, rfl, fun _ h => h⟩

theorem RegsRise.trans {r q p : Registers} (h : RegsRise r q) (g : RegsRise q p) : RegsRise r p :=
  ⟨g.anchor.trans h.anchor, g.start.trans h.start, g.enables.trans h.enables, fun k x => g.attention k (h.attention k x)⟩

theorem RegsRise.or (r : Registers) (b : BitVec 5) : RegsRise r { r with attention := r.attention ||| b } :=
  ⟨rfl, rfl, rfl, fun k h => by simp [h]⟩

/-- Only the Order Unit, the Journal Writer, the attention flags, the draws of free values and the records made change. -/
structure LinkFrame (s t : State) : Prop where
  rest : t = { s with regs := t.regs, orders := t.orders, journal := t.journal, freeCount := t.freeCount, made := t.made }
  regs : RegsRise s.regs t.regs

/-- Beside those, what an event of the crossings changes: the line's tables, calls, lamps, crossings, proofs, cues and announcements. -/
structure CrossingFrame (s t : State) : Prop where
  rest : t = { s with
    regs := t.regs, orders := t.orders, journal := t.journal, freeCount := t.freeCount, made := t.made, line := t.line,
    calls := t.calls, lamps := t.lamps, crossings := t.crossings, proofs := t.proofs, cues := t.cues, ann := t.ann }
  regs : RegsRise s.regs t.regs

/-- What no command but a reset, a store and the part's own writes into shared memory changes: time, the pins, the configuration memory,
shared memory, the queue of commands and the registers the host writes. -/
structure InnerFrame (s t : State) : Prop where
  now : t.now = s.now
  held : t.held = s.held
  wp : t.wp = s.wp
  mem : t.mem = s.mem
  pending : t.pending = s.pending
  config : t.config = s.config
  regs : RegsRise s.regs t.regs

theorem LinkFrame.refl (s : State) : LinkFrame s s := ⟨rfl, .refl _⟩
theorem CrossingFrame.refl (s : State) : CrossingFrame s s := ⟨rfl, .refl _⟩
theorem InnerFrame.refl (s : State) : InnerFrame s s := ⟨rfl, rfl, rfl, rfl, rfl, rfl, .refl _⟩

theorem LinkFrame.trans {s t u : State} (h : LinkFrame s t) (g : LinkFrame t u) : LinkFrame s u :=
  ⟨by have a := h.rest; have b := g.rest; rw [b]; simp only [State.mk.injEq]; rw [a]; simp, h.regs.trans g.regs⟩

theorem CrossingFrame.trans {s t u : State} (h : CrossingFrame s t) (g : CrossingFrame t u) : CrossingFrame s u :=
  ⟨by have a := h.rest; have b := g.rest; rw [b]; simp only [State.mk.injEq]; rw [a]; simp, h.regs.trans g.regs⟩

theorem InnerFrame.trans {s t u : State} (h : InnerFrame s t) (g : InnerFrame t u) : InnerFrame s u :=
  ⟨g.now.trans h.now, g.held.trans h.held, g.wp.trans h.wp, g.mem.trans h.mem, g.pending.trans h.pending,
    g.config.trans h.config, h.regs.trans g.regs⟩

theorem LinkFrame.crossing {s t : State} (h : LinkFrame s t) : CrossingFrame s t :=
  ⟨by have a := h.rest; rw [a], h.regs⟩

theorem CrossingFrame.inner {s t : State} (h : CrossingFrame s t) : InnerFrame s t := by
  have a := h.rest
  exact ⟨by rw [a], by rw [a], by rw [a], by rw [a], by rw [a], by rw [a], h.regs⟩

theorem LinkFrame.upd {s₀ s : State} (o : OrderUnit) (j : JournalWriter) (n : Nat) (h : LinkFrame s₀ s) :
    LinkFrame s₀ { s with orders := o, journal := j, freeCount := n } :=
  h.trans ⟨rfl, .refl _⟩

theorem raise_link {s₀ s : State} (a : Attention) (h : LinkFrame s₀ s) : LinkFrame s₀ (raise a s) :=
  h.trans ⟨rfl, .or _ _⟩

theorem produce_link {s₀ s : State} (c : Nat) (b : RecordBody) (h : LinkFrame s₀ s) : LinkFrame s₀ (produce c b s) :=
  h.trans ⟨rfl, .refl _⟩

theorem drawn_link {s₀ s : State} (h : LinkFrame s₀ s) : LinkFrame s₀ (drawn s) := h.trans ⟨rfl, .refl _⟩

theorem LinkFrame.ite {s₀ a b : State} {p : Prop} [Decidable p] (ha : LinkFrame s₀ a) (hb : LinkFrame s₀ b) :
    LinkFrame s₀ (if p then a else b) := by
  split <;> assumption

theorem journalFault_link {s₀ s : State} (h : LinkFrame s₀ s) : LinkFrame s₀ (journalFault s) :=
  raise_link _ (h.upd s.orders _ s.freeCount)

theorem journalOpen_link {s₀ s : State} (h : LinkFrame s₀ s) : LinkFrame s₀ (journalOpen s) := by
  unfold journalOpen
  split
  · exact .ite (h.upd s.orders _ s.freeCount) (journalFault_link h)
  · exact h

theorem journalJoin_link {s₀ s : State} (h : LinkFrame s₀ s) : LinkFrame s₀ (journalJoin s) := by
  unfold journalJoin
  split
  · split
    · exact h.upd s.orders _ s.freeCount
    · exact journalOpen_link h
  · exact h

theorem journalLeave_link {s₀ s : State} (h : LinkFrame s₀ s) : LinkFrame s₀ (journalLeave s) := by
  unfold journalLeave
  split
  · exact h.upd s.orders _ s.freeCount
  · exact h.upd s.orders _ s.freeCount
  · exact h

theorem journalGoOn_link {s₀ s : State} (h : LinkFrame s₀ s) : LinkFrame s₀ (journalGoOn s) := by
  unfold journalGoOn
  refine .ite ?_ (h.upd s.orders _ s.freeCount)
  split
  · exact h.upd s.orders _ s.freeCount
  · exact journalOpen_link h
  · exact h

theorem journalReread_link {s₀ s : State} (h : LinkFrame s₀ s) : LinkFrame s₀ (journalReread s) :=
  .ite (.ite (h.upd s.orders _ s.freeCount) (h.upd s.orders _ s.freeCount)) h

theorem rereadHeld_link {s₀ s : State} (h : LinkFrame s₀ s) : LinkFrame s₀ (rereadHeld s) :=
  .ite (journalReread_link (h.upd s.orders _ s.freeCount)) h

theorem anchorFail_link {s₀ s : State} (b : Bool) (h : LinkFrame s₀ s) : LinkFrame s₀ (anchorFail b s) :=
  raise_link _ (h.upd _ s.journal s.freeCount)

theorem beginAnchor_link {s₀ s : State} (r : Bool) (h : LinkFrame s₀ s) : LinkFrame s₀ (beginAnchor r s) :=
  .ite (h.upd _ s.journal s.freeCount) (anchorFail_link _ h)

theorem startAgain_link {s₀ s : State} (h : LinkFrame s₀ s) : LinkFrame s₀ (startAgain s) := .ite (beginAnchor_link _ h) h

theorem anchorLost_link {s₀ s : State} (b : Bool) (h : LinkFrame s₀ s) : LinkFrame s₀ (anchorLost b s) :=
  .ite (anchorFail_link _ h) (startAgain_link (anchorFail_link _ h))

theorem stopLink_link {s₀ s : State} (h : LinkFrame s₀ s) : LinkFrame s₀ (stopLink s) :=
  startAgain_link (journalLeave_link (h.upd { s.orders with
    link := .stopped, saved := s.orders.watched, watched := none, stopping := false, access := .idle } s.journal s.freeCount))

theorem haltChain_link {s₀ s : State} (h : LinkFrame s₀ s) : LinkFrame s₀ (haltChain s) := by
  have g := journalLeave_link (raise_link .linkFault (h.upd { s.orders with
    link := if s.orders.stopping then .stopped else .halted, saved := s.orders.watched, watched := none,
    stopping := false, access := .idle } s.journal s.freeCount))
  exact .ite (startAgain_link g) g

theorem startResult_link {s₀ s : State} (h : LinkFrame s₀ s) : LinkFrame s₀ (startResult s) := by
  unfold startResult
  split
  · split
    · exact h.upd _ s.journal s.freeCount
    · exact h
    · exact h
  · exact h

theorem startLook_link {s₀ s : State} (h : LinkFrame s₀ s) : LinkFrame s₀ (startLook s) := h.upd _ s.journal s.freeCount

theorem pumpOrders_link {s₀ s : State} (h : LinkFrame s₀ s) : LinkFrame s₀ (pumpOrders s) :=
  .ite (.ite (stopLink_link h) (.ite (.ite (startLook_link h) h)
    (.ite (.ite (startLook_link (drawn_link h)) (startResult_link (drawn_link h))) (startResult_link h)))) h

theorem endOrder_link {s₀ s : State} (t : Ticket) (r : Result) (h : LinkFrame s₀ s) : LinkFrame s₀ (endOrder t r s) := by
  unfold endOrder
  split
  · exact .ite (pumpOrders_link (h.upd _ s.journal s.freeCount)) h
  · exact h
  · exact h

theorem freeSlot_link {s₀ s : State} (i : SlotIx) (h : LinkFrame s₀ s) : LinkFrame s₀ (freeSlot i s) :=
  h.upd _ s.journal s.freeCount

theorem handOver_link {s₀ s : State} (o : OrderHead) (ps : List Word) (b : Bool) (h : LinkFrame s₀ s) :
    LinkFrame s₀ (handOver o ps b s) := by
  unfold handOver
  split
  · exact h
  · dsimp only
    split
    · exact endOrder_link _ _ (h.upd _ s.journal s.freeCount)
    · exact h.upd _ s.journal s.freeCount

theorem startSet_link {s₀ s : State} (h : LinkFrame s₀ s) : LinkFrame s₀ (startSet s) := .ite (beginAnchor_link _ h) h

theorem startCleared_link {s₀ s : State} (h : LinkFrame s₀ s) : LinkFrame s₀ (startCleared s) := by
  unfold startCleared
  split
  · exact .ite (stopLink_link h) (h.upd _ s.journal s.freeCount)
  · exact h.upd _ s.journal s.freeCount
  · exact h.upd _ s.journal s.freeCount

theorem restartNow_link {s₀ s : State} (h : LinkFrame s₀ s) : LinkFrame s₀ (restartNow s) :=
  beginAnchor_link _ (h.upd _ s.journal s.freeCount)

theorem lookNow_link {s₀ s : State} (h : LinkFrame s₀ s) : LinkFrame s₀ (lookNow s) :=
  .ite (pumpOrders_link (h.upd _ s.journal s.freeCount)) h

theorem nudgeWrite_link {s₀ s : State} (h : LinkFrame s₀ s) : LinkFrame s₀ (nudgeWrite s) :=
  journalReread_link (lookNow_link h)

end Sys2Proof.Machine
end

