-- ==== Sys2Proof/Laws/CrossingFrames.lean ====
section
/-! SUPPORT. The frame of what happens at one crossing: the announcements, the calls, the cues, the tests and the sequencer of crossing c
keep within `AtCrossing c`. -/

namespace Sys2Proof.Machine

/-- A change at one crossing: the frame of the crossings, and no other crossing's record, calls or proof record. -/
structure AtCrossing (c : Crossing) (s t : State) : Prop extends CrossingFrame s t where
  others : OthersKept s t c

theorem AtCrossing.refl (c : Crossing) (s : State) : AtCrossing c s s := ⟨.refl s, fun _ _ => ⟨rfl, rfl, rfl⟩⟩

theorem AtCrossing.trans {c : Crossing} {s t u : State} (h : AtCrossing c s t) (g : AtCrossing c t u) : AtCrossing c s u :=
  ⟨h.toCrossingFrame.trans g.toCrossingFrame, fun d n =>
    ⟨(g.others d n).1.trans (h.others d n).1, (g.others d n).2.1.trans (h.others d n).2.1,
      (g.others d n).2.2.trans (h.others d n).2.2⟩⟩

theorem LinkFrame.at {s t : State} (c : Crossing) (h : LinkFrame s t) : AtCrossing c s t :=
  ⟨h.crossing, fun d _ => by have a := h.rest; rw [a]; exact ⟨rfl, rfl, rfl⟩⟩

theorem AtCrossing.ite {c : Crossing} {s₀ a b : State} {p : Prop} [Decidable p] (ha : AtCrossing c s₀ a)
    (hb : AtCrossing c s₀ b) : AtCrossing c s₀ (if p then a else b) := by
  split <;> assumption

theorem AtCrossing.each {α : Type} {c : Crossing} {s₀ : State} {f : α → State → State} (xs : List α)
    (hf : ∀ x s, AtCrossing c s₀ s → AtCrossing c s₀ (f x s)) : ∀ s, AtCrossing c s₀ s → AtCrossing c s₀ (each xs f s) := by
  induction xs with
  | nil => exact fun _ h => h
  | cons x xs ih => exact fun s h => ih _ (hf x s h)

section
variable {c : Crossing} {s₀ s : State}

theorem AtCrossing.line (l : Line) (h : AtCrossing c s₀ s) : AtCrossing c s₀ { s with line := l } :=
  h.trans ⟨⟨rfl, .refl _⟩, fun _ _ => ⟨rfl, rfl, rfl⟩⟩
theorem AtCrossing.lamps (v : Vector Bool 32) (h : AtCrossing c s₀ s) : AtCrossing c s₀ { s with lamps := v } :=
  h.trans ⟨⟨rfl, .refl _⟩, fun _ _ => ⟨rfl, rfl, rfl⟩⟩
theorem AtCrossing.cues (q : CueAllocator) (h : AtCrossing c s₀ s) : AtCrossing c s₀ { s with cues := q } :=
  h.trans ⟨⟨rfl, .refl _⟩, fun _ _ => ⟨rfl, rfl, rfl⟩⟩
theorem AtCrossing.ann (e : Engine) (h : AtCrossing c s₀ s) : AtCrossing c s₀ { s with ann := e } :=
  h.trans ⟨⟨rfl, .refl _⟩, fun _ _ => ⟨rfl, rfl, rfl⟩⟩

theorem other_set {α : Type} {v : Vector α 8} {d : Crossing} (n : d ≠ c) (x : α) : (v.set c x)[d] = v[d] := by
  have : c.val ≠ d.val := fun e => n (Fin.ext e.symm)
  simp [this]

theorem setCrossing_at (f : CrossingRecord → CrossingRecord) (h : AtCrossing c s₀ s) :
    AtCrossing c s₀ (setCrossing c f s) :=
  h.trans ⟨⟨rfl, .refl _⟩, fun _ n => ⟨other_set n _, rfl, rfl⟩⟩
theorem setCalls_at (es : List Entry) (h : AtCrossing c s₀ s) : AtCrossing c s₀ (setCalls c es s) :=
  h.trans ⟨⟨rfl, .refl _⟩, fun _ n => ⟨rfl, other_set n _, rfl⟩⟩
theorem setProof_at (f : ProofRec → ProofRec) (h : AtCrossing c s₀ s) : AtCrossing c s₀ (setProof c f s) :=
  h.trans ⟨⟨rfl, .refl _⟩, fun _ n => ⟨rfl, rfl, other_set n _⟩⟩

/-! ### Operations of the link side -/

theorem produce_at (n : Nat) (b : RecordBody) (h : AtCrossing c s₀ s) : AtCrossing c s₀ (produce n b s) :=
  h.trans (LinkFrame.at c (produce_link n b (.refl s)))
theorem raise_at (a : Attention) (h : AtCrossing c s₀ s) : AtCrossing c s₀ (raise a s) :=
  h.trans (LinkFrame.at c (raise_link a (.refl s)))
theorem endOrder_at (t : Ticket) (r : Result) (h : AtCrossing c s₀ s) : AtCrossing c s₀ (endOrder t r s) :=
  h.trans (LinkFrame.at c (endOrder_link t r (.refl s)))

/-! ### Announcements -/

theorem setContext_at (st : Station) (x : Option Context) (h : AtCrossing c s₀ s) : AtCrossing c s₀ (setContext st x s) :=
  h.ann _

theorem prefetch_at (st : Station) (h : AtCrossing c s₀ s) : AtCrossing c s₀ (prefetch st s) := by
  unfold prefetch
  split
  · exact h
  · dsimp only
    split
    · exact setContext_at _ _ h
    · exact (setContext_at st _ h).ann _

theorem setFlush_at (st : Station) (h : AtCrossing c s₀ s) : AtCrossing c s₀ (setFlush st s) := h.line _

theorem countOutcome_at (t : Ticket) (o : AnnOutcome) (h : AtCrossing c s₀ s) : AtCrossing c s₀ (countOutcome t o s) := by
  unfold countOutcome
  split
  · exact h
  · exact .ite (endOrder_at _ _ (h.ann _)) (h.ann _)

theorem requestEnd_at (st : Station) (o : Origin) (out : AnnOutcome) (n : Nat) (h : AtCrossing c s₀ s) :
    AtCrossing c s₀ (requestEnd st o out n s) := by
  unfold requestEnd
  split
  · exact produce_at _ _ h
  · exact produce_at _ _ h
  · exact countOutcome_at _ _ (produce_at _ _ h)

theorem endContext_at (st : Station) (out : AnnOutcome) (flush : Bool) (h : AtCrossing c s₀ s) :
    AtCrossing c s₀ (endContext st out flush s) := by
  unfold endContext
  split
  · exact h
  · exact requestEnd_at _ _ _ _ (.ite (setFlush_at _ (setContext_at _ _ h)) (setContext_at _ _ h))

theorem faultOrPrefetch_at (st : Station) (h : AtCrossing c s₀ s) : AtCrossing c s₀ (faultOrPrefetch st s) := by
  unfold faultOrPrefetch
  split
  · exact h
  · split
    · exact endContext_at _ _ _ h
    · exact prefetch_at _ h

theorem startContext_at (st : Station) (q : AnnRequest) (b : Bool) (h : AtCrossing c s₀ s) :
    AtCrossing c s₀ (startContext st q b s) :=
  prefetch_at _ ((setContext_at st _ h).ann _)

theorem request_at (st : Station) (q : AnnRequest) (h : AtCrossing c s₀ s) : AtCrossing c s₀ (request st q s) := by
  unfold request
  refine .ite (requestEnd_at _ _ _ _ h) ?_
  split
  · exact .ite (requestEnd_at _ _ _ _ h) (.ite (requestEnd_at _ _ _ _ h) (startContext_at _ _ _ h))
  · exact .ite (startContext_at _ _ _ (endContext_at _ _ _ h)) (requestEnd_at _ _ _ _ h)

theorem announceOrder_at (t : Ticket) (g : Target) (p : Nat) (ds : List Desc) (h : AtCrossing c s₀ s) :
    AtCrossing c s₀ (announceOrder t g p ds s) := by
  unfold announceOrder
  split
  · exact endOrder_at _ _ h
  · exact .ite (.ite (endOrder_at _ _ h) (.each _ (fun st _ g => request_at st _ g) _ (h.ann _)))
      (.each _ (fun st _ g => request_at st _ g) _ h)

theorem engineDeliver_at (st : Station) (p f : Nat) (b : Bool) (h : AtCrossing c s₀ s) :
    AtCrossing c s₀ (engineDeliver st p f b s) := by
  unfold engineDeliver
  dsimp only
  split
  · exact h.ann _
  · exact .ite (endContext_at _ _ _ (setContext_at _ _ (h.ann _))) (faultOrPrefetch_at _ (setContext_at _ _ (h.ann _)))

theorem suspendContext_at (st : Station) (h : AtCrossing c s₀ s) : AtCrossing c s₀ (suspendContext st s) := by
  unfold suspendContext
  split
  · exact .ite h (setFlush_at _ (setContext_at _ _ h))
  · exact h

theorem resumeContext_at (st : Station) (h : AtCrossing c s₀ s) : AtCrossing c s₀ (resumeContext st s) := by
  unfold resumeContext
  split
  · exact setContext_at _ _ h
  · exact h

theorem suspendContexts_at (d : Crossing) (h : AtCrossing c s₀ s) : AtCrossing c s₀ (suspendContexts d s) :=
  .each _ (fun st _ g => suspendContext_at st g) _ h
theorem resumeContexts_at (d : Crossing) (h : AtCrossing c s₀ s) : AtCrossing c s₀ (resumeContexts d s) :=
  .each _ (fun st _ g => resumeContext_at st g) _ h
theorem cutContexts_at (d : Crossing) (h : AtCrossing c s₀ s) : AtCrossing c s₀ (cutContexts d s) :=
  .each _ (fun _ _ g => endContext_at _ _ _ g) _ h
theorem engineStationLost_at (st : Station) (h : AtCrossing c s₀ s) : AtCrossing c s₀ (engineStationLost st s) :=
  endContext_at _ _ _ (h.ann _)

/-! ### Station tests -/

theorem setTest_at (st : Station) (x : TestState) (h : AtCrossing c s₀ s) : AtCrossing c s₀ (setTest st x s) := h.line _
theorem endTest_at (st : Station) (r : Result) (h : AtCrossing c s₀ s) : AtCrossing c s₀ (endTest st r s) := by
  unfold endTest
  split
  · exact endOrder_at _ _ (setTest_at _ _ h)
  · exact h
theorem abortTest_at (st : Station) (x : TestAbort) (h : AtCrossing c s₀ s) : AtCrossing c s₀ (abortTest st x s) :=
  endTest_at _ _ h
theorem testDone_at (st : Station) (k : TestKind) (n : Nat) (h : AtCrossing c s₀ s) : AtCrossing c s₀ (testDone st k n s) :=
  endTest_at _ _ h
theorem abortTests_at (d : Crossing) (h : AtCrossing c s₀ s) : AtCrossing c s₀ (abortTests d s) :=
  .each _ (fun st _ g => abortTest_at st _ g) _ h
theorem testStation_at (t : Ticket) (st : Station) (k : TestKind) (h : AtCrossing c s₀ s) :
    AtCrossing c s₀ (testStation t st k s) :=
  .ite (endOrder_at _ _ h) (.ite (endOrder_at _ _ h) (.ite (endOrder_at _ _ h) (setTest_at _ _ h)))

/-! ### Aspects, commit and calls -/

theorem commandState_at (st : CrossingState) (h : AtCrossing c s₀ s) : AtCrossing c s₀ (commandState c st s) := setProof_at _ h

theorem enterState_at (st : CrossingState) (x : Cause) (h : AtCrossing c s₀ s) : AtCrossing c s₀ (enterState c st x s) :=
  .ite (commandState_at _ (setCrossing_at _ h)) (produce_at _ _ (commandState_at _ (setCrossing_at _ h)))

theorem commit_at (h : AtCrossing c s₀ s) : AtCrossing c s₀ (commit c s) :=
  enterState_at _ _ (setCrossing_at _ (setCalls_at [] h))

theorem evaluateCommit_at (h : AtCrossing c s₀ s) : AtCrossing c s₀ (evaluateCommit c s) := .ite (commit_at h) h

theorem absorb_at (b : Bool) (g : Nat) (a : Bool) (h : AtCrossing c s₀ s) : AtCrossing c s₀ (absorb c b g a s) :=
  setCrossing_at _ h

theorem setLamp_at (st : Station) (b : Bool) (h : AtCrossing c s₀ s) : AtCrossing c s₀ (setLamp st b s) := h.lamps _
theorem lampsOff_at (d : Crossing) (h : AtCrossing c s₀ s) : AtCrossing c s₀ (lampsOff d s) := h.lamps _

theorem takePress_at (st : Station) (b : Bool) (h : AtCrossing c s₀ s) : AtCrossing c s₀ (takePress st c b s).2 := by
  unfold takePress
  dsimp only
  split
  · have g := produce_at (num c) (.press st (listOutcome s.calls[c] (.station st) (if b then 3 else 1) b)
      (listGrade (listWith s s.calls[c] (.station st) (if b then 3 else 1) b false) (.station st)))
      (setLamp_at st true (setCalls_at (listWith s s.calls[c] (.station st) (if b then 3 else 1) b false) h))
    exact .ite (evaluateCommit_at g) g
  · split
    · have g := absorb_at (!b) (if b then 3 else 1) b h
      exact produce_at _ _ (.ite g (setLamp_at _ _ g))
    · exact produce_at _ _ h

theorem escalateEntry_at (x : Source) (h : AtCrossing c s₀ s) : AtCrossing c s₀ (escalateEntry c x s) :=
  produce_at _ _ (setCalls_at _ h)

theorem returnEntries_at (es : List Entry) (h : AtCrossing c s₀ s) : AtCrossing c s₀ (returnEntries c es s) :=
  evaluateCommit_at ((AtCrossing.each _ (fun (e : Entry) _ g => escalateEntry_at e.source g) _ (setCalls_at _ h)).lamps _)

theorem recallEntry_at (h : AtCrossing c s₀ s) : AtCrossing c s₀ (recallEntry c s) :=
  .ite (evaluateCommit_at (setCalls_at _ h)) (setCalls_at _ h)
theorem setRecall_at (b : Bool) (h : AtCrossing c s₀ s) : AtCrossing c s₀ (setRecall c b s) := setCrossing_at _ h
theorem recallBegins_at (h : AtCrossing c s₀ s) : AtCrossing c s₀ (recallBegins c s) :=
  .ite (setRecall_at _ h) (recallEntry_at (setRecall_at _ h))
theorem callsStationLost_at (h : AtCrossing c s₀ s) : AtCrossing c s₀ (callsStationLost c s) := .ite (recallBegins_at h) h
theorem callsStationFound_at (h : AtCrossing c s₀ s) : AtCrossing c s₀ (callsStationFound c s) := setRecall_at _ h
theorem callsStartup_at (h : AtCrossing c s₀ s) : AtCrossing c s₀ (callsStartup c s) := .ite (recallBegins_at h) h
theorem callsVehGreen_at (h : AtCrossing c s₀ s) : AtCrossing c s₀ (callsVehGreen c s) := .ite (recallEntry_at h) h
theorem dropList_at (x : DropCause) (h : AtCrossing c s₀ s) : AtCrossing c s₀ (dropList c x s) :=
  .ite (setCalls_at _ h) (produce_at _ _ (setCalls_at _ h))
theorem callsStopped_at (h : AtCrossing c s₀ s) : AtCrossing c s₀ (callsStopped c s) :=
  setRecall_at _ (lampsOff_at _ (dropList_at _ h))

theorem remoteCall_at (t : Ticket) (g : Nat) (a : Bool) (h : AtCrossing c s₀ s) : AtCrossing c s₀ (remoteCall t c g a s) := by
  unfold remoteCall
  refine .ite ?_ (.ite (endOrder_at _ _ (absorb_at _ _ _ h)) (endOrder_at _ _ h))
  exact .ite (evaluateCommit_at (endOrder_at _ _ (setCalls_at _ h))) (endOrder_at _ _ (setCalls_at _ h))

theorem cancelCalls_at (t : Ticket) (b : Bool) (h : AtCrossing c s₀ s) : AtCrossing c s₀ (cancelCalls t c b s) :=
  endOrder_at _ _ (AtCrossing.lamps _ (.ite (setCalls_at _ h) (produce_at _ _ (setCalls_at _ h))))

/-! ### Cues -/

theorem cueRequest_at (d : Crossing) (h : AtCrossing c s₀ s) : AtCrossing c s₀ (cueRequest d s) := h.cues _
theorem cueRelease_at (d : Crossing) (h : AtCrossing c s₀ s) : AtCrossing c s₀ (cueRelease d s) := h.cues _
theorem nameCueSent_at (st : Station) (h : AtCrossing c s₀ s) : AtCrossing c s₀ (nameCueSent st s) := h.cues _
theorem cueAnswer_at (d : Crossing) (q : List Crossing) (h : AtCrossing c s₀ s) : AtCrossing c s₀ (cueAnswer d q s) := by
  unfold cueAnswer
  dsimp only
  split
  · exact produce_at _ _ (h.cues _)
  · exact produce_at _ _ (h.cues _)

/-! ### The sequencer -/

theorem clearAcks_at (d : Crossing) (h : AtCrossing c s₀ s) : AtCrossing c s₀ (clearAcks d s) := h.line _

theorem enterStartup_at (m : Mode) (x : Cause) (h : AtCrossing c s₀ s) : AtCrossing c s₀ (enterStartup c m x s) :=
  .ite (abortTests_at _ (callsStartup_at (enterState_at _ _ (setCrossing_at _ h))))
    (callsStartup_at (enterState_at _ _ (setCrossing_at _ h)))

theorem completeStart_at (h : AtCrossing c s₀ s) : AtCrossing c s₀ (completeStart c s) := by
  unfold completeStart
  split
  · exact .ite (endOrder_at _ _ (setCrossing_at _ h)) h
  · exact h

theorem enterGreen_at (x : Cause) (h : AtCrossing c s₀ s) : AtCrossing c s₀ (enterGreen c x s) :=
  completeStart_at (callsVehGreen_at (enterState_at _ _ (setCrossing_at _ h)))

theorem enterTarget_at (m : Mode) (h : AtCrossing c s₀ s) : AtCrossing c s₀ (enterTarget c m s) := by
  have g := clearAcks_at c (cutContexts_at c (callsStopped_at (enterState_at m.stopState .order
    (setCrossing_at (fun (r : CrossingRecord) => { r.cleared with mode := m, mask := 0 }) h))))
  exact .ite (abortTests_at _ g) g

theorem completeStop_at (o : PendingOrder) (h : AtCrossing c s₀ s) : AtCrossing c s₀ (completeStop c o s) :=
  endOrder_at _ _ (enterTarget_at _ (setCrossing_at _ h))

theorem enterGreenOrStop_at (x : Cause) (h : AtCrossing c s₀ s) : AtCrossing c s₀ (enterGreenOrStop c x s) := by
  unfold enterGreenOrStop
  split
  · exact .ite (enterGreen_at _ h) (completeStop_at _ h)
  · exact enterGreen_at _ h

theorem enterRedBefore_at (h : AtCrossing c s₀ s) : AtCrossing c s₀ (enterRedBefore c s) :=
  enterState_at _ _ (setCrossing_at _ h)

theorem enterWalk_at (h : AtCrossing c s₀ s) : AtCrossing c s₀ (enterWalk c s) := by
  unfold enterWalk
  dsimp only
  refine suspendContexts_at _ (lampsOff_at _ (cueRequest_at _ ?_))
  split
  · exact produce_at _ _ (enterState_at _ _ (setCrossing_at _ h))
  · exact enterState_at _ _ (setCrossing_at _ h)

theorem enterClearance_at (h : AtCrossing c s₀ s) : AtCrossing c s₀ (enterClearance c s) :=
  enterState_at _ _ (setCrossing_at _ (cueRelease_at _ h))

theorem enterRedAfter_at (h : AtCrossing c s₀ s) : AtCrossing c s₀ (enterRedAfter c s) :=
  resumeContexts_at _ (enterState_at _ _ (setCrossing_at _ h))

theorem flashOrder_at (h : AtCrossing c s₀ s) : AtCrossing c s₀ (flashOrder c s) := by
  unfold flashOrder
  split
  · exact h
  · exact .ite (endOrder_at _ _ (setCrossing_at _ h)) (completeStop_at _ h)

theorem enterFlash_at (h : AtCrossing c s₀ s) : AtCrossing c s₀ (enterFlash c s) := by
  have k := setCrossing_at (fun (r : CrossingRecord) => { r.cleared with mask := 0 }) h
  have g := clearAcks_at c (cutContexts_at c (callsStopped_at (enterState_at .flash .fault
    (AtCrossing.ite (p := s.crossings[c].state = .walk) (cueRelease_at c k) k))))
  exact .ite h (flashOrder_at (.ite (abortTests_at c g) g))

theorem holdReturn_at (h : AtCrossing c s₀ s) : AtCrossing c s₀ (holdReturn c s) :=
  enterGreenOrStop_at _ (returnEntries_at _ h)

theorem supersede_at (h : AtCrossing c s₀ s) : AtCrossing c s₀ (supersede c s) := by
  unfold supersede
  split
  · exact endOrder_at _ _ (setCrossing_at _ h)
  · exact h

theorem dealMode_at (t : Ticket) (m : Mode) (h : AtCrossing c s₀ s) : AtCrossing c s₀ (dealMode t c m s) :=
  .ite (.ite (evaluateCommit_at (endOrder_at _ _ (setCrossing_at _ h))) (setCrossing_at _ (enterStartup_at _ _ h)))
    (.ite (setCrossing_at _ h) (endOrder_at _ _ (.ite h (enterTarget_at _ h))))

theorem setModeOrder_at (t : Ticket) (m : Mode) (h : AtCrossing c s₀ s) : AtCrossing c s₀ (setModeOrder t c m s) :=
  .ite (endOrder_at _ _ h) (.ite (endOrder_at _ _ h) (.ite (endOrder_at _ _ h) (dealMode_at _ _ (supersede_at h))))

theorem sequencerLockout_at (h : AtCrossing c s₀ s) : AtCrossing c s₀ (sequencerLockout c s) :=
  .ite (setProof_at _ (setCrossing_at _ h)) (produce_at _ _ (setProof_at _ (setCrossing_at _ h)))

theorem tellPlanMask_at (m : Nat) (h : AtCrossing c s₀ s) : AtCrossing c s₀ (tellPlanMask c m s) :=
  evaluateCommit_at (setCrossing_at _ h)

theorem holdCut_at (h : AtCrossing c s₀ s) : AtCrossing c s₀ (holdCut c s) := by
  unfold holdCut
  dsimp only
  split
  · exact h
  · exact .ite (enterClearance_at (setCrossing_at _ h)) (setCrossing_at _ h)

theorem holdBegan_at (h : AtCrossing c s₀ s) : AtCrossing c s₀ (holdBegan c s) := by
  unfold holdBegan
  split
  · exact holdReturn_at h
  · exact holdCut_at h
  all_goals exact h

/-! ### The Proof Monitor, but for LOCKOUT -/

theorem faultRecord_at (d : Crossing) (k : FaultKind) (p : ProofRec) (h : AtCrossing c s₀ s) :
    AtCrossing c s₀ (faultRecord d k p s) := produce_at _ _ h
theorem faultFlash_at (k : FaultKind) (p : ProofRec) (h : AtCrossing c s₀ s) : AtCrossing c s₀ (faultFlash c k p s) :=
  enterFlash_at (raise_at _ (faultRecord_at _ _ _ h))
theorem lampRecords_at (d : Crossing) (o : BitVec 4) (p : ProofRec) (h : AtCrossing c s₀ s) :
    AtCrossing c s₀ (lampRecords d o p s) := .each _ (fun _ _ g => faultRecord_at _ _ _ g) _ h
theorem proofHeadLost_at (h : AtCrossing c s₀ s) : AtCrossing c s₀ (proofHeadLost c s) := by
  unfold proofHeadLost
  split
  · exact h
  · exact faultFlash_at _ _ (setProof_at _ h)
theorem proofHeadFound_at (h : AtCrossing c s₀ s) : AtCrossing c s₀ (proofHeadFound c s) := setProof_at _ h

end

end Sys2Proof.Machine
end

