-- ==== Sys2Proof/Laws/Journal.lean ====
section
/-! SUPPORT. The Journal Writer: what a record does to the FIFO and the lost count, and what the accesses leave of them. -/

namespace Sys2Proof.Machine

theorem enter_free (j : JournalWriter) (r : JournalRecord) (h : j.lost = 0) (g : j.fifo.length < 128) :
    j.enter r = { j with fifo := j.fifo ++ [r] } := by
  simp [JournalWriter.enter, h, Config.fifoDepth, g]

/-- A record leaves the FIFO within its size and the lost count within 32 bits. -/
theorem enter_bounded (j : JournalWriter) (r : JournalRecord) (h : j.fifo.length ≤ 128) :
    (j.enter r).fifo.length ≤ 128 ∧ (j.enter r).lost ≤ 4294967295 := by
  by_cases c : j.lost = 0 ∧ j.fifo.length < 128
  · rw [enter_free j r c.1 c.2, List.length_append, List.length_singleton]
    exact ⟨c.2, by have := c.1; dsimp only; omega⟩
  unfold JournalWriter.enter
  simp only [Config.fifoDepth, lostMax]
  by_cases a : j.lost = 0
  · have b : ¬j.fifo.length < 128 := fun b => c ⟨a, b⟩
    simp [a, b, h]
  · by_cases b : j.fifo.length + 2 ≤ 128
    · simp [a, b]
    · simp only [a, b, if_false]
      exact ⟨h, Nat.min_le_right _ _⟩

/-- A record entering keeps what stands in the FIFO at its head. -/
theorem enter_keeps (j : JournalWriter) (r : JournalRecord) : ∃ xs, (j.enter r).fifo = j.fifo ++ xs ∧ xs.length ≤ 2 := by
  unfold JournalWriter.enter
  split
  · split
    · exact ⟨[r], rfl, by simp⟩
    · exact ⟨[], by simp, by simp⟩
  · split
    · exact ⟨_, rfl, by simp⟩
    · exact ⟨[], by simp, by simp⟩

/-- Starting an access changes nothing but the access. -/
theorem pump_rest (j : JournalWriter) (now : Time) : j.pump now = { j with access := (j.pump now).access } := by
  unfold JournalWriter.pump
  split
  · split
    · rfl
    · split
      · rfl
      · split <;> rfl
  · rfl

@[simp] theorem pump_fifo (j : JournalWriter) (now : Time) : (j.pump now).fifo = j.fifo := by rw [pump_rest]
@[simp] theorem pump_lost (j : JournalWriter) (now : Time) : (j.pump now).lost = j.lost := by rw [pump_rest]
@[simp] theorem pump_state (j : JournalWriter) (now : Time) : (j.pump now).state = j.state := by rw [pump_rest]
@[simp] theorem pump_current (j : JournalWriter) (now : Time) : (j.pump now).current = j.current := by rw [pump_rest]
@[simp] theorem pump_cursor (j : JournalWriter) (now : Time) : (j.pump now).cursor = j.cursor := by rw [pump_rest]
@[simp] theorem pump_listAddr (j : JournalWriter) (now : Time) : (j.pump now).listAddr = j.listAddr := by rw [pump_rest]

/-- The FIFO and the lost count are kept. -/
structure FifoKept (s t : State) : Prop where
  fifo : t.journal.fifo = s.journal.fifo
  lost : t.journal.lost = s.journal.lost

theorem FifoKept.refl (s : State) : FifoKept s s := ⟨rfl, rfl⟩
theorem FifoKept.trans {s t u : State} (h : FifoKept s t) (g : FifoKept t u) : FifoKept s u :=
  ⟨g.fifo.trans h.fifo, g.lost.trans h.lost⟩
theorem FifoKept.ite {s a b : State} {p : Prop} [Decidable p] (ha : FifoKept s a) (hb : FifoKept s b) :
    FifoKept s (if p then a else b) := by
  split <;> assumption

theorem journalOpen_fifo (s : State) : FifoKept s (journalOpen s) := by
  unfold journalOpen
  split
  · split <;> exact ⟨rfl, rfl⟩
  · exact .refl s
theorem journalLeave_fifo (s : State) : FifoKept s (journalLeave s) := by
  unfold journalLeave; split <;> exact ⟨rfl, rfl⟩
theorem journalJoin_fifo (s : State) : FifoKept s (journalJoin s) := by
  unfold journalJoin
  split
  · split
    · exact ⟨pump_fifo _ _, pump_lost _ _⟩
    · exact journalOpen_fifo s
  · exact .refl s
theorem journalGoOn_fifo (s : State) : FifoKept s (journalGoOn s) := by
  unfold journalGoOn
  split
  · split
    · exact ⟨pump_fifo _ _, pump_lost _ _⟩
    · exact journalOpen_fifo s
    · exact .refl s
  · exact ⟨rfl, rfl⟩
theorem beginAnchor_fifo (r : Bool) (s : State) : FifoKept s (beginAnchor r s) := .ite ⟨rfl, rfl⟩ ⟨rfl, rfl⟩
theorem startAgain_fifo (s : State) : FifoKept s (startAgain s) := .ite (beginAnchor_fifo _ s) (.refl s)
theorem stopLink_fifo (s : State) : FifoKept s (stopLink s) :=
  have g : FifoKept s (journalLeave { s with orders := { s.orders with
      link := .stopped, saved := s.orders.watched, watched := none, stopping := false, access := .idle } }) :=
    ⟨(journalLeave_fifo _).fifo, (journalLeave_fifo _).lost⟩
  g.trans (startAgain_fifo _)
theorem haltChain_fifo (s : State) : FifoKept s (haltChain s) := by
  unfold haltChain
  extract_lets b o t
  have g : FifoKept s t := ⟨(journalLeave_fifo _).fifo, (journalLeave_fifo _).lost⟩
  exact .ite (g.trans (startAgain_fifo _)) g
theorem startResult_fifo (s : State) : FifoKept s (startResult s) := by
  unfold startResult
  split
  · split <;> exact ⟨rfl, rfl⟩
  · exact .refl s
theorem drawnResult_fifo (s : State) : FifoKept s (startResult (drawn s)) :=
  have e := startResult_fifo (drawn s)
  ⟨e.fifo, e.lost⟩
theorem pumpOrders_fifo (s : State) : FifoKept s (pumpOrders s) :=
  .ite (.ite (stopLink_fifo s) (.ite (.ite ⟨rfl, rfl⟩ (.refl s))
    (.ite (.ite ⟨rfl, rfl⟩ (drawnResult_fifo s)) (startResult_fifo s)))) (.refl s)
/-- The end of an order leaves the FIFO and the lost count. -/
theorem endOrder_fifo (k : Ticket) (r : Result) (s : State) : FifoKept s (endOrder k r s) := by
  unfold endOrder
  split
  · split
    · exact ⟨(pumpOrders_fifo _).fifo, (pumpOrders_fifo _).lost⟩
    · exact .refl s
  · exact .refl s
  · exact .refl s

/-! ### The records of an event (R169, R170) -/

theorem take_bounded (now : Time) (j : JournalWriter) (r : JournalRecord) (h : j.fifo.length ≤ 128) :
    (j.take now r).fifo.length ≤ 128 ∧ (j.take now r).lost ≤ 4294967295 := by
  unfold JournalWriter.take
  rw [pump_fifo, pump_lost]
  exact enter_bounded j r h

theorem take_free (now : Time) (j : JournalWriter) (r : JournalRecord) (h : j.lost = 0) (g : j.fifo.length < 128) :
    (j.take now r).fifo = j.fifo ++ [r] ∧ (j.take now r).lost = 0 := by
  unfold JournalWriter.take
  rw [pump_fifo, pump_lost, enter_free j r h g]
  exact ⟨rfl, h⟩

/-- Taking records leaves the FIFO within its size and the lost count within 32 bits. -/
theorem takes_bounded (now : Time) (rs : List JournalRecord) : ∀ j : JournalWriter, j.fifo.length ≤ 128 → j.lost ≤ 4294967295 →
    (rs.foldl (JournalWriter.take now) j).fifo.length ≤ 128 ∧ (rs.foldl (JournalWriter.take now) j).lost ≤ 4294967295 := by
  induction rs with
  | nil => exact fun _ h g => ⟨h, g⟩
  | cons r rs ih => exact fun j h _ => ih _ (take_bounded now j r h).1 (take_bounded now j r h).2

/-- With room for all of them, records taken stand in the FIFO in the order of their taking, and none is lost. -/
theorem takes_free (now : Time) (rs : List JournalRecord) : ∀ j : JournalWriter, j.lost = 0 → j.fifo.length + rs.length ≤ 128 →
    (rs.foldl (JournalWriter.take now) j).fifo = j.fifo ++ rs ∧ (rs.foldl (JournalWriter.take now) j).lost = 0 := by
  induction rs with
  | nil => exact fun j h _ => ⟨by simp, h⟩
  | cons r rs ih =>
    intro j h g
    rw [List.length_cons] at g
    have a := take_free now j r h (by omega)
    have b := ih (j.take now r) a.2 (by rw [a.1, List.length_append, List.length_singleton]; omega)
    rw [a.1] at b
    exact ⟨by rw [List.foldl_cons, b.1]; simp, b.2⟩

section
variable {α : Type} (keeps : α → α → Bool)

/-- What may come next stands in the list with nothing before it that must precede it. -/
theorem mayComeNext_mem (a : α) : ∀ before xs : List α, a ∈ mayComeNext keeps before xs →
    ∃ p q, xs = p ++ a :: q ∧ (∀ y ∈ before, keeps y a = false) ∧ ∀ y ∈ p, keeps y a = false := by
  intro before xs
  induction xs generalizing before with
  | nil => exact fun h => absurd h (by simp [mayComeNext])
  | cons x xs ih =>
    intro h
    have later (m : a ∈ mayComeNext keeps (x :: before) xs) :
        ∃ p q, x :: xs = p ++ a :: q ∧ (∀ y ∈ before, keeps y a = false) ∧ ∀ y ∈ p, keeps y a = false := by
      obtain ⟨p, q, e, hb, hp⟩ := ih _ m
      exact ⟨x :: p, q, by rw [e]; rfl, fun y m => hb y (by simp [m]), fun y m => by
        rcases List.mem_cons.mp m with rfl | m
        · exact hb _ (by simp)
        · exact hp y m⟩
    unfold mayComeNext at h
    split at h
    · exact later h
    · rename_i c
      rcases List.mem_cons.mp h with rfl | m
      · exact ⟨[], xs, rfl, by simpa using c, by simp⟩
      · exact later m

/-- The first of a list may come next. -/
theorem mayComeNext_cons (x : α) (xs : List α) : ∃ ys, mayComeNext keeps [] (x :: xs) = x :: ys := ⟨_, rfl⟩

variable [DecidableEq α]

/-- A free order of a list that is not empty: an element that may come next, and a free order of the others. -/
theorem freeOrder_cases (n k : Nat) (xs : List α) (h : xs ≠ []) :
    ∃ a ∈ mayComeNext keeps [] xs, freeOrder keeps (n + 1) k xs = a :: freeOrder keeps n (k + 1) (xs.erase a) := by
  obtain ⟨x, zs, rfl⟩ := List.exists_cons_of_ne_nil h
  obtain ⟨ys, e⟩ := mayComeNext_cons keeps x zs
  rw [e]
  cases ys with
  | nil => exact ⟨x, by simp, by simp [freeOrder, e]⟩
  | cons y ys =>
    refine ⟨(x :: y :: ys).getD (Config.freeIndex k % (ys.length + 2)) x, ?_, by simp [freeOrder, e]⟩
    have b : Config.freeIndex k % (ys.length + 2) < (x :: y :: ys).length := Nat.mod_lt _ (by simp)
    rw [List.getD_eq_getElem?_getD, List.getElem?_eq_getElem b]
    exact List.getElem_mem b

@[simp] theorem freeOrder_nil (n k : Nat) : freeOrder keeps n k [] = [] := by cases n <;> rfl

/-- A free order is an order of the same elements. -/
theorem freeOrder_perm (n : Nat) : ∀ (k : Nat) (xs : List α), (freeOrder keeps n k xs).Perm xs := by
  induction n with
  | zero => exact fun _ xs => .refl xs
  | succ n ih =>
    intro k xs
    by_cases h : xs = []
    · rw [h, freeOrder_nil]
    obtain ⟨a, m, e⟩ := freeOrder_cases keeps n k xs h
    obtain ⟨p, q, f, -⟩ := mayComeNext_mem keeps a _ xs m
    rw [e]
    exact ((ih _ _).cons a).trans (List.perm_cons_erase (by rw [f]; simp)).symm

/-- A free order keeps the order of elements each of which must precede those after it. -/
theorem freeOrder_keeps (refl : ∀ a, keeps a a = true) (f : α → Bool) (n : Nat) : ∀ (k : Nat) (xs : List α),
    (xs.filter f).Pairwise (fun a b => keeps a b = true) → (freeOrder keeps n k xs).filter f = xs.filter f := by
  induction n with
  | zero => exact fun _ _ _ => rfl
  | succ n ih =>
    intro k xs g
    by_cases h : xs = []
    · rw [h, freeOrder_nil]
    obtain ⟨a, m, e⟩ := freeOrder_cases keeps n k xs h
    obtain ⟨p, q, rfl, -, hp⟩ := mayComeNext_mem keeps a _ xs m
    have out : a ∉ p := fun m => by simpa [refl a] using hp a m
    rw [e, List.erase_append_right _ out, List.erase_cons_head, List.filter_cons]
    rw [List.filter_append, List.filter_cons] at g ⊢
    cases c : f a with
    | false =>
      simp only [c, if_false, Bool.false_eq_true] at g ⊢
      rw [ih _ (p ++ q) (by rwa [List.filter_append]), List.filter_append]
    | true =>
      simp only [c, if_true] at g ⊢
      have none : p.filter f = [] := List.filter_eq_nil_iff.mpr fun b m d => by
        simpa [hp b m] using (List.pairwise_append.mp g).2.2 b (List.mem_filter.mpr ⟨m, d⟩) a (by simp)
      rw [none, List.nil_append] at g ⊢
      rw [ih _ (p ++ q) (by rw [List.filter_append, none]; exact (List.pairwise_cons.mp g).2), List.filter_append, none, List.nil_append]

/-- A list whose elements each must precede those after it has one order. -/
theorem freeOrder_all (refl : ∀ a, keeps a a = true) (n k : Nat) (xs : List α) (h : xs.Pairwise (fun a b => keeps a b = true)) :
    freeOrder keeps n k xs = xs := by
  have all (ys : List α) : ys.filter (fun _ => true) = ys := List.filter_eq_self.mpr (fun _ _ => rfl)
  have e := freeOrder_keeps keeps refl (fun _ => true) n k xs (by rwa [all])
  rwa [all, all] at e

end

theorem precedes_block {a b : JournalRecord} (h : a.producer = b.producer) : a.precedes b = true := by
  simp [JournalRecord.precedes, h]
theorem precedes_refl (a : JournalRecord) : a.precedes a = true := precedes_block rfl

/-- A FAULT record precedes every record produced after it in its event (R110, R111, R115, R118). -/
theorem precedes_fault {a : JournalRecord} {k : FaultKind} {p : Pair} {q : Option Pair} {l : BitVec 4} (h : a.body = .fault k p q l)
    (b : JournalRecord) : a.precedes b = true := by
  simp [JournalRecord.precedes, h]

/-- An event that makes no record leaves the journal. -/
theorem recordsEnter_none (m : List JournalRecord) (s : State) (h : s.made = []) : recordsEnter m s = { s with made := m } := by
  simp [recordsEnter, h]

/-- The one record of an event is taken as it is made. -/
theorem recordsEnter_one (m : List JournalRecord) (s : State) (r : JournalRecord) (h : s.made = [r]) :
    recordsEnter m s = { s with journal := s.journal.take s.now r, made := m } := by
  rw [recordsEnter, h, freeOrder_all _ precedes_refl _ _ _ (List.pairwise_singleton _ _)]
  rfl

/-- With room for every record of the event, all of them stand in the FIFO behind what it held, none is lost, and those of which each
must precede the ones after it stand in the order of their making. -/
theorem recordsEnter_room (m : List JournalRecord) (s : State) (h : s.journal.lost = 0)
    (g : s.journal.fifo.length + s.made.length ≤ 128) :
    ∃ rs, (recordsEnter m s).journal.fifo = s.journal.fifo ++ rs ∧ (recordsEnter m s).journal.lost = 0 ∧ rs.Perm s.made ∧
      ∀ f : JournalRecord → Bool, (s.made.filter f).Pairwise (fun a b => a.precedes b = true) → rs.filter f = s.made.filter f :=
  have p := freeOrder_perm JournalRecord.precedes s.made.length s.freeCount s.made
  have e := takes_free s.now _ s.journal h (by rw [p.length_eq]; exact g)
  ⟨_, e.1, e.2, p, fun f => freeOrder_keeps _ precedes_refl f _ _ _⟩

/-- The records of an event change the journal, the count of the free values and nothing else. -/
theorem recordsEnter_rest (m : List JournalRecord) (s : State) : recordsEnter m s = { s with
    journal := (recordsEnter m s).journal, freeCount := (recordsEnter m s).freeCount, made := m } := rfl

theorem recordsEnter_bounded (m : List JournalRecord) (s : State) (h : JournalBounded s) : JournalBounded (recordsEnter m s) :=
  takes_bounded s.now _ s.journal h.1 h.2

theorem recordsEnter_link {s₀ s : State} (m : List JournalRecord) (h : LinkFrame s₀ s) : LinkFrame s₀ (recordsEnter m s) :=
  h.trans ⟨rfl, .refl _⟩

/-- What an event of the part is: with reset released it answers the state its effect leaves, its records taken. -/
theorem live_next (s : State) (f : State → State) (h : s.held = false) :
    live s f = .next (recordsEnter s.made (f { s with made := [] })) := by
  simp [live, h]

/-- The records of one block are taken in the order of their making. -/
theorem live_same (s : State) (f : State → State) (b : Producer) (h : s.held = false)
    (g : ∀ r ∈ (f { s with made := [] }).made, r.producer = b) :
    live s f = .next { f { s with made := [] } with
      journal := (f { s with made := [] }).made.foldl (JournalWriter.take (f { s with made := [] }).now)
        (f { s with made := [] }).journal
      freeCount := (f { s with made := [] }).freeCount + ((f { s with made := [] }).made.length - 1)
      made := s.made } := by
  rw [live_next s f h, recordsEnter, freeOrder_all _ precedes_refl _ _ _ (List.pairwise_of_forall_mem_list fun a ha c hc =>
    precedes_block ((g a ha).trans (g c hc).symm))]

end Sys2Proof.Machine
end

