-- ==== Sys2Proof/Laws/InnerFrames.lean ====
section
/-! SUPPORT. The widest frame, `InnerFrame`: the operations that act on several crossings or on other tables: the link's hand-over, the plan,
the hold, LOCKOUT, the presses, the scan, the ends of an exchange, the load of a site. -/

namespace Sys2Proof.Machine

theorem AtCrossing.inner {c : Crossing} {s t : State} (h : AtCrossing c s t) : InnerFrame s t := h.toCrossingFrame.inner

section
variable {s₀ s : State}

theorem InnerFrame.via {c : Crossing} {t : State} (h : InnerFrame s₀ s) (g : AtCrossing c s t) : InnerFrame s₀ t :=
  h.trans g.inner

theorem InnerFrame.link {t : State} (h : InnerFrame s₀ s) (g : LinkFrame s t) : InnerFrame s₀ t := h.trans g.crossing.inner

theorem InnerFrame.ite {a b : State} {p : Prop} [Decidable p] (ha : InnerFrame s₀ a) (hb : InnerFrame s₀ b) :
    InnerFrame s₀ (if p then a else b) := by
  split <;> assumption

theorem InnerFrame.each {α : Type} {f : α → State → State} (xs : List α)
    (hf : ∀ x s, InnerFrame s₀ s → InnerFrame s₀ (f x s)) : ∀ s, InnerFrame s₀ s → InnerFrame s₀ (each xs f s) := by
  induction xs with
  | nil => exact fun _ h => h
  | cons x xs ih => exact fun s h => ih _ (hf x s h)

theorem InnerFrame.site_ (v : SiteTable) (h : InnerFrame s₀ s) : InnerFrame s₀ { s with site := v } :=
  h.trans ⟨rfl, rfl, rfl, rfl, rfl, rfl, .refl _⟩
theorem InnerFrame.line_ (v : Line) (h : InnerFrame s₀ s) : InnerFrame s₀ { s with line := v } :=
  h.trans ⟨rfl, rfl, rfl, rfl, rfl, rfl, .refl _⟩
theorem InnerFrame.press_ (v : Vector PressState 32) (h : InnerFrame s₀ s) : InnerFrame s₀ { s with press := v } :=
  h.trans ⟨rfl, rfl, rfl, rfl, rfl, rfl, .refl _⟩
theorem InnerFrame.lamps_ (v : Vector Bool 32) (h : InnerFrame s₀ s) : InnerFrame s₀ { s with lamps := v } :=
  h.trans ⟨rfl, rfl, rfl, rfl, rfl, rfl, .refl _⟩
theorem InnerFrame.plan_ (v : PlanUnit) (h : InnerFrame s₀ s) : InnerFrame s₀ { s with plan := v } :=
  h.trans ⟨rfl, rfl, rfl, rfl, rfl, rfl, .refl _⟩
theorem InnerFrame.hold_ (v : HoldLogic) (h : InnerFrame s₀ s) : InnerFrame s₀ { s with hold := v } :=
  h.trans ⟨rfl, rfl, rfl, rfl, rfl, rfl, .refl _⟩
theorem InnerFrame.cues_ (v : CueAllocator) (h : InnerFrame s₀ s) : InnerFrame s₀ { s with cues := v } :=
  h.trans ⟨rfl, rfl, rfl, rfl, rfl, rfl, .refl _⟩
theorem InnerFrame.ann_ (v : Engine) (h : InnerFrame s₀ s) : InnerFrame s₀ { s with ann := v } :=
  h.trans ⟨rfl, rfl, rfl, rfl, rfl, rfl, .refl _⟩
theorem InnerFrame.orders_ (v : OrderUnit) (h : InnerFrame s₀ s) : InnerFrame s₀ { s with orders := v } :=
  h.trans ⟨rfl, rfl, rfl, rfl, rfl, rfl, .refl _⟩
theorem InnerFrame.journal_ (v : JournalWriter) (h : InnerFrame s₀ s) : InnerFrame s₀ { s with journal := v } :=
  h.trans ⟨rfl, rfl, rfl, rfl, rfl, rfl, .refl _⟩
theorem InnerFrame.status_ (v : StatusWriter) (h : InnerFrame s₀ s) : InnerFrame s₀ { s with status := v } :=
  h.trans ⟨rfl, rfl, rfl, rfl, rfl, rfl, .refl _⟩
theorem InnerFrame.street_ (v : Street) (h : InnerFrame s₀ s) : InnerFrame s₀ { s with street := v } :=
  h.trans ⟨rfl, rfl, rfl, rfl, rfl, rfl, .refl _⟩
theorem InnerFrame.proofs_ (v : Vector (Option ProofRec) 8) (h : InnerFrame s₀ s) : InnerFrame s₀ { s with proofs := v } :=
  h.trans ⟨rfl, rfl, rfl, rfl, rfl, rfl, .refl _⟩
theorem InnerFrame.part_ (p : PartState) (b : Bool) (h : InnerFrame s₀ s) :
    InnerFrame s₀ { s with part := p, safeOut := b } :=
  h.trans ⟨rfl, rfl, rfl, rfl, rfl, rfl, .refl _⟩

/-! ### The link and its writers -/

theorem raise_inner (a : Attention) (h : InnerFrame s₀ s) : InnerFrame s₀ (raise a s) := h.link (raise_link a (.refl s))
theorem produce_inner (n : Nat) (b : RecordBody) (h : InnerFrame s₀ s) : InnerFrame s₀ (produce n b s) :=
  h.link (produce_link n b (.refl s))
theorem endOrder_inner (t : Ticket) (r : Result) (h : InnerFrame s₀ s) : InnerFrame s₀ (endOrder t r s) :=
  h.link (endOrder_link t r (.refl s))
theorem pumpOrders_inner (h : InnerFrame s₀ s) : InnerFrame s₀ (pumpOrders s) := h.link (pumpOrders_link (.refl s))

theorem statusBegin_inner (h : InnerFrame s₀ s) : InnerFrame s₀ (statusBegin s) := by
  unfold statusBegin
  split
  · exact .ite h (h.status_ _)
  · exact h
theorem statusJoin_inner (h : InnerFrame s₀ s) : InnerFrame s₀ (statusJoin s) := statusBegin_inner (h.status_ _)
theorem statusStop_inner (h : InnerFrame s₀ s) : InnerFrame s₀ (statusStop s) := raise_inner _ (h.status_ _)
theorem statusTakeAddr_inner (a : Nat) (h : InnerFrame s₀ s) : InnerFrame s₀ (statusTakeAddr a s) :=
  .ite (h.status_ _) (statusStop_inner (h.status_ _))
theorem journalTakeList_inner (a : Nat) (r : Bool) (h : InnerFrame s₀ s) : InnerFrame s₀ (journalTakeList a r s) := by
  have g : InnerFrame s₀ { s with journal := { s.journal with listAddr := some a, cursor := 0 } } := h.journal_ _
  exact .ite (.ite g (g.link (journalFault_link (.refl _)))) h
theorem descriptorRead_inner (a b : Word) (h : InnerFrame s₀ s) : InnerFrame s₀ (descriptorRead a b s) :=
  .ite (InnerFrame.link (InnerFrame.journal_ _ (h.journal_ _)) (rereadHeld_link (journalGoOn_link (.refl _))))
    (.ite (InnerFrame.link (InnerFrame.journal_ _ (h.journal_ _)) (journalGoOn_link (.refl _)))
      (InnerFrame.link (h.journal_ _) (journalFault_link (.refl _))))
theorem bufferClosed_inner (b : Buffer) (h : InnerFrame s₀ s) : InnerFrame s₀ (bufferClosed b s) :=
  InnerFrame.link (raise_inner _ (h.journal_ _)) (journalGoOn_link (.refl _))
theorem joinLink_inner (a : Nat) (h : InnerFrame s₀ s) : InnerFrame s₀ (joinLink a s) :=
  pumpOrders_inner (statusJoin_inner (InnerFrame.link (h.orders_ _) (journalJoin_link (.refl _))))
theorem takePhraseArea_inner (a b : Nat) (h : InnerFrame s₀ s) : InnerFrame s₀ (takePhraseArea a b s) := h.site_ _
theorem anchorTaken_inner (ws : List Word) (r j : Bool) (h : InnerFrame s₀ s) : InnerFrame s₀ (anchorTaken ws r j s) := by
  have g := statusTakeAddr_inner (ws.getD 3 0).toNat (journalTakeList_inner (ws.getD 2 0).toNat r
    (takePhraseArea_inner (ws.getD 4 0).toNat (ws.getD 5 0).toNat (h.orders_ { s.orders with access := .idle })))
  exact .ite (joinLink_inner _ g) (g.link (startAgain_link (.refl _)))
theorem headerRead_inner (b : Nat) (w : Word) (h : InnerFrame s₀ s) : InnerFrame s₀ (headerRead b w s) :=
  .ite (h.link (haltChain_link (.refl _))) (.ite (h.orders_ _)
    (.ite (h.orders_ _) (h.link (haltChain_link (.refl _)))))
theorem journalRestart_inner (h : InnerFrame s₀ s) : InnerFrame s₀ (journalRestart s) := h.journal_ _
theorem statusRestart_inner (h : InnerFrame s₀ s) : InnerFrame s₀ (statusRestart s) := h.status_ _
theorem beginAnchor_inner (r : Bool) (h : InnerFrame s₀ s) : InnerFrame s₀ (beginAnchor r s) :=
  h.link (beginAnchor_link r (.refl s))
theorem linkRestart_inner (h : InnerFrame s₀ s) : InnerFrame s₀ (linkRestart s) := by
  have g := statusRestart_inner (journalRestart_inner h)
  unfold linkRestart
  refine .ite h ?_
  extract_lets s₁ plan ann s₂ orders o
  have g₂ : InnerFrame s₀ s₂ := g.trans ⟨rfl, rfl, rfl, rfl, rfl, rfl, .refl _⟩
  clear_value o s₂
  split
  · exact beginAnchor_inner _ (g₂.orders_ _)
  · exact beginAnchor_inner _ (g₂.orders_ _)
  all_goals exact g₂.orders_ _

/-! ### Plan and hold -/

theorem tellPlanMask_inner (c : Crossing) (m : Nat) (h : InnerFrame s₀ s) : InnerFrame s₀ (tellPlanMask c m s) :=
  h.via (tellPlanMask_at m (.refl c s))
theorem computeWindow_inner (p : Plan) (c : Crossing) (h : InnerFrame s₀ s) : InnerFrame s₀ (computeWindow p c s) :=
  by
  have g := h.plan_ { s.plan with
    windowOpen := s.plan.windowOpen.set c (p.openAt c s.plan.position)
    mask := s.plan.mask.set c (p.maskAt c s.plan.position) }
  exact .ite g (tellPlanMask_inner _ _ g)
theorem computeWindows_inner (p : Plan) (h : InnerFrame s₀ s) : InnerFrame s₀ (computeWindows p s) :=
  .each _ (fun c _ g => computeWindow_inner p c g) _ h
theorem adopt_inner (p : Plan) (t : Ticket) (n : Time) (h : InnerFrame s₀ s) : InnerFrame s₀ (adopt p t n s) := by
  unfold adopt
  extract_lets plan s₁ s₂
  have g : InnerFrame s₀ s₁ := h.plan_ _
  exact endOrder_inner _ _ (produce_inner _ _ (computeWindows_inner _ g))
theorem supersedePlan_inner (h : InnerFrame s₀ s) : InnerFrame s₀ (supersedePlan s) := by
  unfold supersedePlan
  split
  · exact endOrder_inner _ _ (produce_inner _ _ (h.plan_ _))
  · exact h
theorem loadPlanOrder_inner (t : Ticket) (p : Plan) (h : InnerFrame s₀ s) : InnerFrame s₀ (loadPlanOrder t p s) := by
  unfold loadPlanOrder
  split
  · exact adopt_inner _ _ _ h
  · exact (supersedePlan_inner h).plan_ _
theorem cycleTick_inner (p : Plan) (t : Time) (h : InnerFrame s₀ s) : InnerFrame s₀ (cycleTick p t s) := by
  unfold cycleTick
  refine .ite ?_ (computeWindows_inner _ (h.plan_ _))
  split
  · exact adopt_inner _ _ _ h
  · exact computeWindows_inner _ (h.plan_ _)
theorem holdChange_inner (x : HoldState) (t : Option Time) (e : HoldEvent) (r : HoldSource) (h : InnerFrame s₀ s) :
    InnerFrame s₀ (holdChange x t e r s) := raise_inner _ (produce_inner _ _ (h.hold_ _))
theorem evaluateCommit_inner (c : Crossing) (h : InnerFrame s₀ s) : InnerFrame s₀ (evaluateCommit c s) :=
  h.via (evaluateCommit_at (.refl c s))
theorem requestChanged_inner (x : HoldSource) (h : InnerFrame s₀ s) : InnerFrame s₀ (requestChanged x s) := by
  unfold requestChanged
  split
  · exact .each _ (fun c _ g => g.via (holdBegan_at (.refl c _))) _ (holdChange_inner _ _ _ _ h)
  · exact .each _ (fun c _ g => evaluateCommit_inner c g) _ (holdChange_inner _ _ _ _ h)
  · exact holdChange_inner _ _ _ _ h
  all_goals exact h
theorem changeInput_inner (x : HoldSource) (f : HoldLogic → HoldLogic) (h : InnerFrame s₀ s) :
    InnerFrame s₀ (changeInput x f s) := .ite (h.hold_ _) (requestChanged_inner _ (h.hold_ _))
theorem corridorHold_inner (t : Ticket) (b : Bool) (h : InnerFrame s₀ s) : InnerFrame s₀ (corridorHold t b s) :=
  endOrder_inner _ _ (changeInput_inner _ _ h)

/-! ### LOCKOUT and the Proof Monitor -/

theorem callsLockout_inner (h : InnerFrame s₀ s) : InnerFrame s₀ (callsLockout s) := by
  unfold callsLockout
  extract_lets s₁
  have g : InnerFrame s₀ s₁ := .each _ (fun c _ g => g.via (dropList_at _ (.refl c _))) _ h
  clear_value s₁
  exact .each _ (fun c _ g => g.via (setRecall_at false (.refl c _))) _
    (g.trans ⟨rfl, rfl, rfl, rfl, rfl, rfl, .refl _⟩)
theorem engineLockout_inner (h : InnerFrame s₀ s) : InnerFrame s₀ (engineLockout s) :=
  .each _ (fun _ _ g => g.via (endContext_at (c := 0) _ _ _ (.refl 0 _))) _ (h.ann_ _)
theorem ordersLockout_inner (h : InnerFrame s₀ s) : InnerFrame s₀ (ordersLockout s) :=
  .each _ (fun _ _ g => endOrder_inner _ _ g) _ (h.orders_ _)
theorem lineLockout_inner (h : InnerFrame s₀ s) : InnerFrame s₀ (lineLockout s) := h.line_ _
theorem headsLosePower_inner (h : InnerFrame s₀ s) : InnerFrame s₀ (headsLosePower s) := h.street_ _
theorem cuesLockout_inner (h : InnerFrame s₀ s) : InnerFrame s₀ (cuesLockout s) := h.cues_ _
theorem enterLockout_inner (h : InnerFrame s₀ s) : InnerFrame s₀ (enterLockout s) := by
  unfold enterLockout
  extract_lets s₁ s₂ site plan s₃ s₄ s₅ s₆
  have g₂ : InnerFrame s₀ s₂ := headsLosePower_inner (lineLockout_inner (raise_inner _ (h.part_ _ _)))
  clear_value s₂
  have g₃ : InnerFrame s₀ s₃ := g₂.trans ⟨rfl, rfl, rfl, rfl, rfl, rfl, .refl _⟩
  clear_value s₃
  exact ordersLockout_inner (engineLockout_inner (cuesLockout_inner
    (.each _ (fun c _ g => g.via (sequencerLockout_at (.refl c _))) _ (callsLockout_inner g₃))))
theorem faultFlash_inner (c : Crossing) (k : FaultKind) (p : ProofRec) (h : InnerFrame s₀ s) :
    InnerFrame s₀ (faultFlash c k p s) := h.via (faultFlash_at k p (.refl c s))
theorem failedProof_inner (c : Crossing) (p : ProofRec) (h : InnerFrame s₀ s) : InnerFrame s₀ (failedProof c p s) :=
  .ite (enterLockout_inner (produce_inner _ _ h)) (faultFlash_inner _ _ _ h)
theorem checkCurrent_inner (c : Crossing) (p : ProofRec) (x : Pair) (h : InnerFrame s₀ s) :
    InnerFrame s₀ (checkCurrent c p x s) := by
  unfold checkCurrent
  refine .ite ?_ ?_
  · split
    · exact h.proofs_ _
    · exact h
    · exact h
  · split
    · exact .ite (h.proofs_ _) (failedProof_inner _ _ (h.proofs_ _))
    · exact failedProof_inner _ _ h
    · exact h
theorem proofDeliver_inner (c : Crossing) (x y : Pair) (l : BitVec 4) (h : InnerFrame s₀ s) :
    InnerFrame s₀ (proofDeliver c x y l s) := by
  unfold proofDeliver
  split
  · exact h
  · rename_i old _
    have g := h.via (lampRecords_at c old.lamps { old with proven := some y, lamps := l }
      (setProof_at (fun _ => { old with proven := some y, lamps := l }) (.refl c s)))
    exact .ite (faultFlash_inner _ _ _ g) (.ite (checkCurrent_inner _ _ _ g) g)

/-! ### Presses -/

theorem setPress_inner (st : Station) (f : PressState → PressState) (h : InnerFrame s₀ s) : InnerFrame s₀ (setPress st f s) :=
  h.press_ _
theorem handEvent_inner (st : Station) (c : Crossing) (b : Bool) (h : InnerFrame s₀ s) :
    InnerFrame s₀ (handEvent st c b s).2 := by
  have g := h.via (takePress_at st b (.refl c s))
  unfold handEvent
  dsimp only
  split
  · exact g
  · exact g.line_ _
theorem pressCounterStep_inner (st : Station) (c : Crossing) (f : StationFields) (h : InnerFrame s₀ s) :
    InnerFrame s₀ (pressCounterStep st c f s) :=
  .ite (setPress_inner _ _ h) (handEvent_inner _ _ _ (setPress_inner _ _ (setPress_inner _ _ h)))
theorem longPressStep_inner (st : Station) (c : Crossing) (f : StationFields) (h : InnerFrame s₀ s) :
    InnerFrame s₀ (longPressStep st c f s).2 := by
  unfold longPressStep
  split
  · exact handEvent_inner _ _ _ (setPress_inner _ _ h)
  · exact h
theorem releaseStep_inner (st : Station) (c : Crossing) (f : StationFields) (h : InnerFrame s₀ s) :
    InnerFrame s₀ (releaseStep st c f s) :=
  .ite (.ite (produce_inner _ _ (setPress_inner _ _ h)) h) (setPress_inner _ _ h)
theorem pressDeliver_inner (st : Station) (c : Crossing) (f : StationFields) (h : InnerFrame s₀ s) :
    InnerFrame s₀ (pressDeliver st c f s).2 :=
  releaseStep_inner _ _ _ (longPressStep_inner _ _ _ (pressCounterStep_inner _ _ _ h))

/-! ### The line -/

theorem stationPollSent_inner (st : Station) (q : StationPoll) (h : InnerFrame s₀ s) :
    InnerFrame s₀ (stationPollSent st q s) := by
  unfold stationPollSent
  dsimp only
  split
  · exact InnerFrame.line_ _ (h.line_ _)
  · exact h.line_ _
  · exact InnerFrame.line_ _ (h.line_ _)
  · exact InnerFrame.ann_ _ (h.line_ _)
  · exact InnerFrame.cues_ _ (h.line_ _)
  · exact h.line_ _
theorem sendPoll_inner (a : NodeAddr) (p : Poll) (h : InnerFrame s₀ s) : InnerFrame s₀ (sendPoll a p s) := h.line_ _
theorem setNode_inner (a : NodeAddr) (f : NodeEntry → NodeEntry) (h : InnerFrame s₀ s) : InnerFrame s₀ (setNode a f s) :=
  h.line_ _
theorem visitStation_inner (a : NodeAddr) (st : Station) (h : InnerFrame s₀ s) : InnerFrame s₀ (visitStation a st s) := by
  unfold visitStation
  split
  · exact .ite (stationPollSent_inner _ _ (sendPoll_inner _ _ h)) (sendPoll_inner _ _ (h.line_ _))
  · exact stationPollSent_inner _ _ (sendPoll_inner _ _ h)
  · exact stationPollSent_inner _ _ (sendPoll_inner _ _ h)
theorem visitHead_inner (a : NodeAddr) (c : Crossing) (e : NodeEntry) (h : InnerFrame s₀ s) :
    InnerFrame s₀ (visitHead a c e s) :=
  .ite (.ite (sendPoll_inner _ _ (setNode_inner _ _ h)) (setNode_inner _ _ h)) (sendPoll_inner _ _ h)
theorem visit_inner (a : NodeAddr) (h : InnerFrame s₀ s) : InnerFrame s₀ (visit a s) := by
  unfold visit
  split
  · exact visitHead_inner _ _ _ h
  · exact visitStation_inner _ _ h
  all_goals exact h
theorem scanFrom_inner (as : List NodeAddr) : ∀ s, InnerFrame s₀ s → InnerFrame s₀ (scanFrom as s) := by
  induction as with
  | nil => exact fun _ h => h.line_ _
  | cons a as ih => exact fun s h => .ite (visit_inner a h) (ih _ (visit_inner a h))
theorem startRounds_inner (n : Nat) : ∀ s, InnerFrame s₀ s → InnerFrame s₀ (startRounds n s) := by
  induction n with
  | zero => exact fun _ h => h
  | succ n ih =>
    exact fun s h => .ite (scanFrom_inner _ _ (h.line_ _)) (ih _ (scanFrom_inner _ _ (h.line_ _)))
theorem scanOn_inner (h : InnerFrame s₀ s) : InnerFrame s₀ (scanOn s) := by
  unfold scanOn
  split
  · exact h
  · exact .ite (scanFrom_inner _ _ h) (startRounds_inner _ _ (scanFrom_inner _ _ h))
theorem roundDue_inner (h : InnerFrame s₀ s) : InnerFrame s₀ (roundDue s) :=
  .ite (.ite (h.line_ _) (startRounds_inner _ _ h)) h

theorem nodeRecord_inner (a : NodeAddr) (n : Nat) (b : Bool) (e : NodeEntry) (h : InnerFrame s₀ s) :
    InnerFrame s₀ (nodeRecord a n b e s) := produce_inner _ _ h
theorem goodHead_inner (a : NodeAddr) (c : Crossing) (q : Poll) (x : Pair) (l : BitVec 4) (e : NodeEntry)
    (h : InnerFrame s₀ s) : InnerFrame s₀ (goodHead a c q x l e s) := by
  have g := setNode_inner a (fun _ => e.onGood) h
  have k := InnerFrame.ite (p := (e.lost && !e.onGood.lost) = true)
    ((nodeRecord_inner a (num c) true e.onGood g).via (proofHeadFound_at (.refl c _))) g
  unfold goodHead
  dsimp only
  split
  · exact .ite k (proofDeliver_inner _ _ _ _ k)
  all_goals exact k
theorem confirmSound_inner (st : Station) (q : StationPoll) (h : InnerFrame s₀ s) : InnerFrame s₀ (confirmSound st q s) := by
  unfold confirmSound
  split
  · exact h.line_ _
  all_goals exact h
theorem answerFlush_inner (st : Station) (q : StationPoll) (h : InnerFrame s₀ s) : InnerFrame s₀ (answerFlush st q s) :=
  .ite (h.line_ _) h
theorem testDone_inner (st : Station) (k : TestKind) (n : Nat) (h : InnerFrame s₀ s) : InnerFrame s₀ (testDone st k n s) :=
  h.via (testDone_at (c := 0) st k n (.refl 0 s))
theorem toneResult_inner (st : Station) (q : StationPoll) (f : StationFields) (h : InnerFrame s₀ s) :
    InnerFrame s₀ (toneResult st q f s) := by
  unfold toneResult
  split
  · exact .ite (testDone_inner _ _ _ h) h
  · exact h
theorem engineDeliver_inner (st : Station) (p f : Nat) (b : Bool) (h : InnerFrame s₀ s) :
    InnerFrame s₀ (engineDeliver st p f b s) := h.via (engineDeliver_at (c := 0) st p f b (.refl 0 s))
theorem infoRequest_inner (st : Station) (c : Crossing) (h : InnerFrame s₀ s) : InnerFrame s₀ (infoRequest st c s) :=
  h.via (request_at (c := c) st _ (.refl c s))
theorem drawn_inner (h : InnerFrame s₀ s) : InnerFrame s₀ (drawn s) := h.link (drawn_link (.refl s))
theorem deliverStation_inner (st : Station) (q : StationPoll) (f : StationFields) (h : InnerFrame s₀ s) :
    InnerFrame s₀ (deliverStation st q f s) := by
  unfold deliverStation
  dsimp only
  split
  · exact h
  · rename_i c _
    have g := pressDeliver_inner st c f h
    exact toneResult_inner _ _ _ (.ite (.ite (engineDeliver_inner _ _ _ _ (infoRequest_inner _ _ (drawn_inner g)))
      (infoRequest_inner _ _ (engineDeliver_inner _ _ _ _ (drawn_inner g)))) (engineDeliver_inner _ _ _ _ g))
theorem foundStation_inner (a : NodeAddr) (st : Station) (e : NodeEntry) (h : InnerFrame s₀ s) :
    InnerFrame s₀ (match crossingOf (nodeRecord a (stationCrossingNum s st) true e s) st with
      | some c => callsStationFound c (nodeRecord a (stationCrossingNum s st) true e s)
      | none => nodeRecord a (stationCrossingNum s st) true e s) := by
  split
  · exact (nodeRecord_inner _ _ _ _ h).via (callsStationFound_at (.refl _ _))
  · exact nodeRecord_inner _ _ _ _ h
theorem goodStation_inner (a : NodeAddr) (st : Station) (q : StationPoll) (f : StationFields) (e : NodeEntry)
    (h : InnerFrame s₀ s) : InnerFrame s₀ (goodStation a st q f e s) := by
  have g := answerFlush_inner st q (confirmSound_inner st q (setNode_inner a (fun _ => e.onGoodStation f) h))
  have k := InnerFrame.ite (p := (e.lost && !(e.onGoodStation f).lost) = true)
    (foundStation_inner a st (e.onGoodStation f) g) g
  exact .ite k (deliverStation_inner _ _ _ k)
theorem loopTestEnd_inner (st : Station) (h : InnerFrame s₀ s) : InnerFrame s₀ (loopTestEnd st s) := by
  unfold loopTestEnd
  split
  · exact .ite (testDone_inner _ _ _ h) h
  all_goals exact h
theorem echoCount_inner (st : Station) (k : Nat) (p : List Byte) (h : InnerFrame s₀ s) : InnerFrame s₀ (echoCount st k p s) := by
  unfold echoCount
  split
  · exact .ite (h.line_ _) h
  all_goals exact h
theorem goodEcho_inner (a : NodeAddr) (st : Station) (k : Nat) (p : List Byte) (e : NodeEntry) (h : InnerFrame s₀ s) :
    InnerFrame s₀ (goodEcho a st k p e s) := by
  have g := setNode_inner a (fun _ => e.onGood) h
  exact loopTestEnd_inner _ (echoCount_inner _ _ _ (.ite (foundStation_inner a st e.onGood g) g))
theorem abortTest_inner (st : Station) (x : TestAbort) (h : InnerFrame s₀ s) : InnerFrame s₀ (abortTest st x s) :=
  h.via (abortTest_at (c := 0) st x (.refl 0 s))
theorem stationBecameLost_inner (a : NodeAddr) (st : Station) (e : NodeEntry) (h : InnerFrame s₀ s) :
    InnerFrame s₀ (stationBecameLost a st e s) := by
  have g := setPress_inner st (fun (p : PressState) => { p with inProgress := false, longTaken := false })
    (InnerFrame.via (nodeRecord_inner a (stationCrossingNum s st) false e h) (engineStationLost_at (c := 0) st (.refl 0 _)))
  unfold stationBecameLost
  dsimp only
  refine InnerFrame.line_ _ (abortTest_inner _ _ ?_)
  split
  · exact g.via (callsStationLost_at (.refl _ _))
  · exact g
theorem engineFailed_inner (st : Station) (b : Bool) (h : InnerFrame s₀ s) : InnerFrame s₀ (engineFailed st b s) :=
  .ite (h.line_ _) h
theorem failNode_inner (x : Exchange) (v : Bool) (h : InnerFrame s₀ s) : InnerFrame s₀ (failNode x v s) := by
  unfold failNode
  split
  · rename_i c e _ _
    have g := setNode_inner x.addr (fun _ => e.onFail v) h
    exact .ite ((nodeRecord_inner _ _ _ _ g).via (proofHeadLost_at (.refl c _))) g
  · rename_i st e _ _
    have g := engineFailed_inner st x.poll.carriedClips (setNode_inner x.addr (fun _ => e.onFail v) h)
    have k := InnerFrame.ite (p := ((e.onFail v).lost && !e.lost) = true)
      (stationBecameLost_inner x.addr st (e.onFail v) g) g
    dsimp only
    split
    · exact loopTestEnd_inner _ k
    all_goals exact k
  all_goals exact h
theorem goodNode_inner (x : Exchange) (r : Reply) (h : InnerFrame s₀ s) : InnerFrame s₀ (goodNode x r s) := by
  unfold goodNode
  split
  · exact goodHead_inner _ _ _ _ _ _ h
  · exact goodStation_inner _ _ _ _ _ h
  · exact goodEcho_inner _ _ _ _ _ h
  · exact h
theorem streetHear_inner (x : Exchange) (h : InnerFrame s₀ s) : InnerFrame s₀ (streetHear x s) := by
  unfold streetHear
  split
  · exact h.street_ _
  · exact h
  all_goals exact h.street_ _
theorem streetAnswer_inner (x : Exchange) (r : Reply) (h : InnerFrame s₀ s) : InnerFrame s₀ (streetAnswer x r s) := by
  unfold streetAnswer
  dsimp only
  split
  · exact (streetHear_inner x h).street_ _
  all_goals exact streetHear_inner x h
theorem streetDoubt_inner (x : Exchange) (h : InnerFrame s₀ s) : InnerFrame s₀ (streetDoubt x s) :=
  .ite (streetHear_inner _ (drawn_inner h)) (drawn_inner h)
theorem streetAbandon_inner (h : InnerFrame s₀ s) : InnerFrame s₀ (streetAbandon s) := by
  unfold streetAbandon
  split
  · exact h
  · exact streetDoubt_inner _ h
theorem exchangeOver_inner (f : Exchange → State → State) (hf : ∀ x s, InnerFrame s₀ s → InnerFrame s₀ (f x s))
    (h : InnerFrame s₀ s) : InnerFrame s₀ (exchangeOver f s) := by
  unfold exchangeOver
  split
  · exact h
  · exact scanOn_inner (hf _ _ (h.line_ _))
theorem exchangeFailed_inner (v : Bool) (h : InnerFrame s₀ s) : InnerFrame s₀ (exchangeFailed v s) :=
  exchangeOver_inner _ (fun x _ g => failNode_inner x v (streetDoubt_inner x g)) h
theorem replyEnded_inner (bs : List Byte) (h : InnerFrame s₀ s) : InnerFrame s₀ (replyEnded bs s) := by
  unfold replyEnded
  split
  · exact h
  · split
    · exact exchangeOver_inner _ (fun x _ g => goodNode_inner x _ (streetAnswer_inner x _ g)) h
    · exact exchangeFailed_inner _ h

/-! ### LOAD_SITE -/

theorem swapSite_inner (x : Site) (h : InnerFrame s₀ s) : InnerFrame s₀ (swapSite x s) :=
  (streetAbandon_inner h).trans ⟨rfl, rfl, rfl, rfl, rfl, rfl, .refl _⟩
theorem loadSiteOrder_inner (t : Ticket) (a : Nat) (h : InnerFrame s₀ s) : InnerFrame s₀ (loadSiteOrder t a s) :=
  .ite (h.site_ _) (endOrder_inner _ _ h)
theorem loadRefused_inner (t : Ticket) (r : Result) (h : InnerFrame s₀ s) : InnerFrame s₀ (loadRefused t r s) :=
  endOrder_inner _ _ (h.site_ _)
theorem loadEnd_inner (t : Ticket) (b : List Word) (h : InnerFrame s₀ s) : InnerFrame s₀ (loadEnd t b s) := by
  unfold loadEnd
  split
  · exact loadRefused_inner _ _ h
  · exact .ite (endOrder_inner _ _ (swapSite_inner _ h)) (loadRefused_inner _ _ h)

/-! ### The event of a command, and the orders at their owners -/

/-- A command whose effect keeps to the inner frame keeps to it, its records taken. -/
theorem live_inner {t : State} (f : State → State) (hf : ∀ s, InnerFrame s (f s)) (h : live s f = .next t) : InnerFrame s t := by
  have a : InnerFrame s (recordsEnter s.made (f { s with made := [] })) :=
    InnerFrame.link ((show InnerFrame s { s with made := [] } from ⟨rfl, rfl, rfl, rfl, rfl, rfl, .refl _⟩).trans (hf _))
      (recordsEnter_link _ (.refl _))
  rw [live, Host.Outcome.next.injEq] at h
  subst h
  exact .ite (.refl _) a

/-- A taken order keeps to the inner frame where its owner's own operation does. -/
theorem taking_inner (slot : SlotIx) (k : OrderKind) (f : Ticket → OrderBody → State → State)
    (hf : ∀ t b s, InnerFrame s₀ s → InnerFrame s₀ (f t b s)) (h : InnerFrame s₀ s) : InnerFrame s₀ (taking slot k f s) := by
  unfold taking
  split
  · exact hf _ _ _ (h.orders_ _)
  · exact h

end

end Sys2Proof.Machine
end

