-- ==== Sys2Proof/Laws/Memory.lean ====
section
/-! SUPPORT. The written bytes of shared memory: a write keeps the canonical form, is read back at its address, and leaves every other
address. -/

namespace Sys2Proof.Machine.Memory

theorem read_write_same (m : List Host.Cell) (a : Nat) (b : Byte) : read (write m a b) a = some b := by
  induction m with
  | nil => simp [write, read]
  | cons x m ih =>
    obtain ⟨a', b'⟩ := x
    unfold write
    split
    · simp [read]
    · split
      · simp [read]
      · rename_i h; simp [read, h, ih]

theorem read_write_other (m : List Host.Cell) (a c : Nat) (b : Byte) (h : c ≠ a) : read (write m a b) c = read m c := by
  induction m with
  | nil => simp [write, read, h]
  | cons x m ih =>
    obtain ⟨a', b'⟩ := x
    unfold write
    split
    · simp [read, h]
    · split
      · rename_i e; subst e; simp [read, h]
      · simp [read, ih]

/-- The first address of a canonical list, if any, is above a bound. -/
def above (a : Nat) : List Host.Cell → Prop
  | [] => True
  | (a', _) :: _ => a < a'

theorem wf_cons (a : Nat) (b : Byte) (m : List Host.Cell) : wf ((a, b) :: m) = true ↔ above a m ∧ wf m = true := by
  cases m with
  | nil => simp [wf, above]
  | cons x m => obtain ⟨a', b'⟩ := x; simp [wf, above]

theorem write_above (m : List Host.Cell) (a c : Nat) (b : Byte) (h : above c m) (g : c < a) : above c (write m a b) := by
  cases m with
  | nil => exact g
  | cons x m =>
    obtain ⟨a', b'⟩ := x
    unfold write
    split
    · exact g
    · split
      · exact g
      · exact h

/-- A write keeps the canonical form. -/
theorem wf_write (m : List Host.Cell) (a : Nat) (b : Byte) (h : wf m = true) : wf (write m a b) = true := by
  induction m with
  | nil => rfl
  | cons x m ih =>
    obtain ⟨a', b'⟩ := x
    have ⟨h₁, h₂⟩ := (wf_cons a' b' m).1 h
    unfold write
    split
    · rename_i g; exact (wf_cons _ _ _).2 ⟨g, h⟩
    · split
      · rename_i e; subst e; exact (wf_cons _ _ _).2 ⟨h₁, h₂⟩
      · rename_i g n; exact (wf_cons _ _ _).2 ⟨write_above _ _ _ _ h₁ (by omega), ih h₂⟩

theorem wf_writeWord (m : List Host.Cell) (a : Nat) (w : Word) (h : wf m = true) : wf (writeWord m a w) = true :=
  wf_write _ _ _ (wf_write _ _ _ (wf_write _ _ _ (wf_write _ _ _ h)))

theorem wf_writeWords (ws : List Word) : ∀ (m : List Host.Cell) (a : Nat), wf m = true → wf (writeWords m a ws) = true := by
  induction ws with
  | nil => exact fun _ _ h => h
  | cons w ws ih => exact fun _ _ h => ih _ _ (wf_writeWord _ _ _ h)

/-- A word write leaves every byte outside its four. -/
theorem read_writeWord_outside (m : List Host.Cell) (a b : Nat) (w : Word) (h : b < a ∨ a + 4 ≤ b) :
    read (writeWord m a w) b = read m b := by
  unfold writeWord
  rw [read_write_other _ _ _ _ (by omega), read_write_other _ _ _ _ (by omega), read_write_other _ _ _ _ (by omega),
    read_write_other _ _ _ _ (by omega)]

theorem read_writeWords_outside (ws : List Word) :
    ∀ (m : List Host.Cell) (a b : Nat), b < a ∨ a + 4 * ws.length ≤ b → read (writeWords m a ws) b = read m b := by
  induction ws with
  | nil => exact fun _ _ _ _ => rfl
  | cons w ws ih =>
    intro m a b h
    simp only [List.length_cons] at h
    unfold writeWords
    rw [ih _ _ _ (by omega), read_writeWord_outside _ _ _ _ (by omega)]

/-- The byte of a word, as it is written. -/
theorem read_writeWord (m : List Host.Cell) (a k : Nat) (w : Word) (h : k < 4) :
    read (writeWord m a w) (a + k) = some (BitVec.ofNat 8 (byteAt w k)) := by
  unfold writeWord
  rcases (by omega : k = 0 ∨ k = 1 ∨ k = 2 ∨ k = 3) with rfl | rfl | rfl | rfl
  · rw [read_write_other _ _ _ _ (by omega), read_write_other _ _ _ _ (by omega), read_write_other _ _ _ _ (by omega)]
    exact read_write_same _ _ _
  · rw [read_write_other _ _ _ _ (by omega), read_write_other _ _ _ _ (by omega), read_write_same]
  · rw [read_write_other _ _ _ _ (by omega), read_write_same]
  · rw [read_write_same]

/-- The four bytes of a word make it again. -/
theorem wordOf_bytes (w : Word) : wordOf (byteAt w 0) (byteAt w 1) (byteAt w 2) (byteAt w 3) = w := by
  apply BitVec.eq_of_toNat_eq
  have := w.isLt
  simp only [wordOf, byteAt, BitVec.toNat_ofNat]
  omega

/-- A written word is read back. -/
theorem readWord_writeWord (m : List Host.Cell) (a : Nat) (w : Word) : readWord (writeWord m a w) a = some w := by
  have h0 := read_writeWord m a 0 w (by omega)
  have h1 := read_writeWord m a 1 w (by omega)
  have h2 := read_writeWord m a 2 w (by omega)
  have h3 := read_writeWord m a 3 w (by omega)
  have e : ∀ k, byteAt w k < 256 := fun k => Nat.mod_lt _ (by omega)
  have d : ∀ k, (BitVec.ofNat 8 (byteAt w k)).toNat = byteAt w k := fun k => by
    simp only [BitVec.toNat_ofNat]; exact Nat.mod_eq_of_lt (e k)
  simp only [Nat.add_zero] at h0
  unfold readWord
  simp only [h0, h1, h2, h3, Option.bind_eq_bind, Option.bind_some, d, wordOf_bytes]
  rfl

/-- A word is read as before where none of its bytes is written. -/
theorem readWord_writeWord_outside (m : List Host.Cell) (a b : Nat) (w : Word) (h : b + 4 ≤ a ∨ a + 4 ≤ b) :
    readWord (writeWord m a w) b = readWord m b := by
  unfold readWord
  rw [read_writeWord_outside _ _ _ _ (by omega), read_writeWord_outside _ _ _ _ (by omega),
    read_writeWord_outside _ _ _ _ (by omega), read_writeWord_outside _ _ _ _ (by omega)]

end Sys2Proof.Machine.Memory
end

