-- ==== Sys2Proof/Laws/Orders.lean ====
section
/-! SUPPORT. The Order Unit: what starting, stopping and halting leave of the slots, and what the end of an order does. -/

namespace Sys2Proof.Machine

/-- The slots, the HELD queue and the orders handed over are kept. -/
structure SlotsKept (s t : State) : Prop where
  slots : t.orders.slots = s.orders.slots
  heldQueue : t.orders.heldQueue = s.orders.heldQueue
  handed : t.orders.handed = s.orders.handed

theorem SlotsKept.refl (s : State) : SlotsKept s s := ⟨rfl, rfl, rfl⟩

theorem SlotsKept.trans {s t u : State} (h : SlotsKept s t) (g : SlotsKept t u) : SlotsKept s u :=
  ⟨g.slots.trans h.slots, g.heldQueue.trans h.heldQueue, g.handed.trans h.handed⟩

theorem SlotsKept.ite {s a b : State} {p : Prop} [Decidable p] (ha : SlotsKept s a) (hb : SlotsKept s b) :
    SlotsKept s (if p then a else b) := by
  split <;> assumption

theorem anchorFail_slots (b : Bool) (s : State) : SlotsKept s (anchorFail b s) := ⟨rfl, rfl, rfl⟩

theorem beginAnchor_slots (r : Bool) (s : State) : SlotsKept s (beginAnchor r s) := .ite ⟨rfl, rfl, rfl⟩ (anchorFail_slots _ s)

theorem startAgain_slots (s : State) : SlotsKept s (startAgain s) := .ite (beginAnchor_slots _ s) (.refl s)

theorem anchorLost_slots (b : Bool) (s : State) : SlotsKept s (anchorLost b s) :=
  .ite (anchorFail_slots _ s) ((anchorFail_slots _ s).trans (startAgain_slots _))

/-- A read that begins: its address with the join it makes, or its failure (R159, R160). -/
theorem beginAnchor_begins (r : Bool) (s : State) (h : s.orders.link = .stopped) : AnchorBegins s (beginAnchor r s) r s.regs.start := by
  have g : (decide (s.regs.anchor.toNat % 16 = 0) && inWindow s.regs.anchor.toNat 24) =
      decide (s.regs.anchor.toNat % 16 = 0 ∧ s.regs.anchor.toNat + 24 ≤ 0x1000000) := by
    have w : inWindow s.regs.anchor.toNat 24 = decide (s.regs.anchor.toNat + 24 ≤ 0x1000000) := rfl
    rw [w, Bool.decide_and]
  unfold AnchorBegins beginAnchor
  simp only [g, decide_eq_true_eq]
  refine ⟨fun a b => ?_, fun a => ?_⟩
  · rw [if_pos ⟨a, b⟩]
    exact ⟨rfl, h⟩
  · rw [if_neg (by omega)]
    exact ⟨rfl, by simp [anchorFail, raise, Attention.bit], rfl⟩

/-- The journal's operations leave the Order Unit alone. -/
theorem journalLeave_orders (s : State) : (journalLeave s).orders = s.orders := by
  unfold journalLeave; split <;> rfl

theorem journalFault_orders (s : State) : (journalFault s).orders = s.orders := rfl

theorem journalOpen_orders (s : State) : (journalOpen s).orders = s.orders := by
  unfold journalOpen
  split
  · split
    · rfl
    · exact journalFault_orders s
  · rfl

theorem journalJoin_orders (s : State) : (journalJoin s).orders = s.orders := by
  unfold journalJoin
  split
  · split
    · rfl
    · exact journalOpen_orders s
  · rfl

theorem journalGoOn_orders (s : State) : (journalGoOn s).orders = s.orders := by
  unfold journalGoOn
  split
  · split
    · rfl
    · exact journalOpen_orders s
    · rfl
  · rfl

theorem journalLeave_slots (s : State) : SlotsKept s (journalLeave s) := by
  unfold journalLeave; split <;> exact ⟨rfl, rfl, rfl⟩

theorem stopLink_slots (s : State) : SlotsKept s (stopLink s) :=
  have g : SlotsKept s (journalLeave { s with orders := { s.orders with
      link := .stopped, saved := s.orders.watched, watched := none, stopping := false, access := .idle } }) :=
    ⟨(journalLeave_slots _).slots, (journalLeave_slots _).heldQueue, (journalLeave_slots _).handed⟩
  g.trans (startAgain_slots _)

theorem haltChain_slots (s : State) : SlotsKept s (haltChain s) := by
  unfold haltChain
  extract_lets b o t
  have g : SlotsKept s t := ⟨(journalLeave_slots _).slots, (journalLeave_slots _).heldQueue, (journalLeave_slots _).handed⟩
  exact .ite (g.trans (startAgain_slots _)) g

theorem startResult_slots (s : State) : SlotsKept s (startResult s) := by
  unfold startResult
  split
  · split <;> exact ⟨rfl, rfl, rfl⟩
  · exact ⟨rfl, rfl, rfl⟩

theorem startLook_slots (s : State) : SlotsKept s (startLook s) := ⟨rfl, rfl, rfl⟩

theorem drawn_slots (s : State) : SlotsKept s (drawn s) := ⟨rfl, rfl, rfl⟩

theorem pumpOrders_slots (s : State) : SlotsKept s (pumpOrders s) :=
  .ite (.ite (stopLink_slots s) (.ite (.ite (startLook_slots s) (.refl s))
    (.ite (.ite ((drawn_slots s).trans (startLook_slots _)) ((drawn_slots s).trans (startResult_slots _)))
      (startResult_slots s)))) (.refl s)

/-- An end for a ticket whose slot is OPEN with its use number: the slot is HELD, last of those that wait (R164). -/
theorem endOrder_live (k : Ticket) (r : Result) (s : State) (h : OrderHead)
    (e : s.orders.slots[k.slot] = ⟨k.use, .occupied h⟩) :
    (endOrder k r s).orders.slots = s.orders.slots.set k.slot ⟨k.use, .finished h r⟩ ∧
    (endOrder k r s).orders.heldQueue = s.orders.heldQueue ++ [k.slot] ∧
    (endOrder k r s).orders.handed = s.orders.handed := by
  have x : endOrder k r s = pumpOrders { s with orders := { s.orders with
      slots := s.orders.slots.set k.slot ⟨k.use, .finished h r⟩
      heldQueue := s.orders.heldQueue ++ [k.slot] } } := by
    simp [endOrder, e]
  have g := pumpOrders_slots { s with orders := { s.orders with
      slots := s.orders.slots.set k.slot ⟨k.use, .finished h r⟩
      heldQueue := s.orders.heldQueue ++ [k.slot] } }
  rw [x]
  exact ⟨g.slots, g.heldQueue, g.handed⟩

/-- An end for any other ticket is discarded (R164). -/
theorem endOrder_dead (k : Ticket) (r : Result) (s : State)
    (e : ∀ h, s.orders.slots[k.slot] ≠ ⟨k.use, .occupied h⟩) : endOrder k r s = s := by
  unfold endOrder
  split
  · rename_i h x
    split
    · rename_i u
      exfalso
      apply e h
      cases y : s.orders.slots[k.slot]
      simp_all
    · rfl
  · rfl
  · rfl

/-- An end of an order leaves what was ended before: a HELD slot keeps its result. -/
theorem endOrder_keeps_finished (k : Ticket) (r q : Result) (s : State) (i : SlotIx) (u : BitVec 8) (h : OrderHead)
    (e : s.orders.slots[i] = ⟨u, .finished h q⟩) : (endOrder k r s).orders.slots[i] = ⟨u, .finished h q⟩ := by
  by_cases d : ∃ h, s.orders.slots[k.slot] = ⟨k.use, .occupied h⟩
  · obtain ⟨h', d⟩ := d
    rw [(endOrder_live k r s h' d).1]
    have n : i ≠ k.slot := by
      intro x
      subst x
      rw [d] at e
      simp at e
    have : k.slot.val ≠ i.val := fun y => n (Fin.ext y.symm)
    simp only [Fin.getElem_fin] at e ⊢
    rw [Vector.getElem_set_ne _ _ this, e]
  · rw [endOrder_dead k r s (fun h x => d ⟨h, x⟩)]
    exact e

/-- What a slot is after an end: as it was, or HELD with the result where it was OPEN under the ticket. -/
theorem endOrder_ends (k : Ticket) (r : Result) (s : State) : Ends s (endOrder k r s) k r := by
  intro h e
  rw [(endOrder_live k r s h e).1]
  simp

end Sys2Proof.Machine
end

