-- ==== Sys2Proof/WellFormed.lean ====
section
/-! DEFINITION. What makes a command well formed: what its operands must be for the event to exist at all. -/

namespace Sys2Proof

/-- An anchor read returns six words (R159). -/
def WordsEnd.hasLength (n : Nat) : WordsEnd → Bool
  | .words ws => ws.length == n
  | .busError => true

/-- The parameters of an order are at most 13 words (R162). -/
def WordsEnd.atMost (n : Nat) : WordsEnd → Bool
  | .words ws => ws.length ≤ n
  | .busError => true

/-- A run of n writes fails at one of its words. -/
def RunEnd.within (n : Nat) : RunEnd → Bool
  | .ok => true
  | .busError k => k < n

/-- The configuration memory gives an image of 147 words, or falls silent at one of them (R184). -/
def MemoryAnswer.fits : MemoryAnswer → Bool
  | .silentAt k => k < Config.imageWords
  | .stored => true
  | .other ws => ws.length == Config.imageWords

/-- The operands of a command are such as the event can bring. -/
def Instr.wellFormed : Instr → Bool
  | .configImageReadDone a => a.fits
  | .storeReadbackDone a => a.fits
  | .anchorReadDone a => a.hasLength 6
  | .orderParamsReadDone a => a.atMost 13
  | .descriptorReadDone a => a.hasLength 2
  | .recordWriteDone a => a.within 4
  | .bufferCloseWriteDone a => a.within 3
  | .headReply bs => !bs.isEmpty
  | .stationReply bs => !bs.isEmpty
  | .echoReply bs => !bs.isEmpty
  | .strayLineBytes bs => !bs.isEmpty
  | .powerOnOrExternalReset _ | .startSet _ | .startCleared _ | .linkRestart _ _ | .attentionEnablesWrite _
  | .nudge _ | .attentionClear _ | .registerWrite _ _ | .chainLookDue | .linkWordReadDone _
  | .orderHeaderReadDone _ | .orderTakenWriteDone _ | .loadSite _ | .storeSite _ _ | .loadPlan _ | .setMode _
  | .remoteCall _ | .cancelCalls _ | .announce _ | .testStation _ | .corridorHold _
  | .resultDetailWriteDone _ | .resultStateWriteDone _ | .imageWordReadDone _ | .storeWriteDone _ _
  | .scanRoundDue | .replyWindowExpiry | .replyCutOff | .toneTestTimeout _ | .callExpiry _ _
  | .startupExpiry _ | .minGreenExpiry _ | .amberExpiry _ | .redBeforeWalkExpiry _ | .walkEndExpiry _
  | .countdownSecond _ | .clearanceExpiry _ | .redAfterWalkExpiry _ | .cycleTick | .holdInEdge _
  | .holdInQualified | .holdTimerExpiry | .cueGrant | .phraseReadDone _ _ | .stallRereadDue
  | .flushTimerExpiry | .statusPeriodDue | .statusWordWriteDone _ | .heldInReset => true

end Sys2Proof
end

