-- ==== Sys2Proof/Laws/PerInstr.lean ====
section
/-! SUPPORT. The per-command family Shape: a well-formed command brings at most an image's 147 words from outside. -/

namespace Sys2Proof.Laws.Shape

/-- The words an ended read brings. -/
def ofWords : WordsEnd → Nat
  | .words ws => ws.length
  | .busError => 0

/-- The words a run of writes had written when it failed. -/
def ofRun : RunEnd → Nat
  | .ok => 0
  | .busError k => k

/-- The words the configuration memory answered with, or had answered with when it fell silent. -/
def ofMemory : MemoryAnswer → Nat
  | .silentAt k => k
  | .stored => 0
  | .other ws => ws.length

/-- The words a command tells of, where it tells of several. -/
def words : Instr → Nat
  | .configImageReadDone a | .storeReadbackDone a => ofMemory a
  | .anchorReadDone a | .orderParamsReadDone a | .descriptorReadDone a => ofWords a
  | .recordWriteDone a | .bufferCloseWriteDone a => ofRun a
  | .powerOnOrExternalReset _ | .startSet _ | .startCleared _ | .linkRestart _ _ | .attentionEnablesWrite _
  | .nudge _ | .attentionClear _ | .registerWrite _ _ | .chainLookDue | .linkWordReadDone _
  | .orderHeaderReadDone _ | .orderTakenWriteDone _ | .loadSite _ | .storeSite _ _ | .loadPlan _ | .setMode _
  | .remoteCall _ | .cancelCalls _ | .announce _ | .testStation _ | .corridorHold _ | .resultDetailWriteDone _
  | .resultStateWriteDone _ | .imageWordReadDone _ | .storeWriteDone _ _ | .scanRoundDue | .headReply _
  | .stationReply _ | .echoReply _ | .replyWindowExpiry | .replyCutOff | .strayLineBytes _ | .toneTestTimeout _
  | .callExpiry _ _ | .startupExpiry _ | .minGreenExpiry _ | .amberExpiry _ | .redBeforeWalkExpiry _
  | .walkEndExpiry _ | .countdownSecond _ | .clearanceExpiry _ | .redAfterWalkExpiry _ | .cycleTick
  | .holdInEdge _ | .holdInQualified | .holdTimerExpiry | .cueGrant | .phraseReadDone _ _ | .stallRereadDue
  | .flushTimerExpiry | .statusPeriodDue | .statusWordWriteDone _ | .heldInReset => 0

/-- A well-formed command tells of at most 147 words. -/
def Statement (i : Instr) : Prop := i.wellFormed = true → words i ≤ Config.imageWords

theorem ofMemory_le (a : MemoryAnswer) (h : a.fits = true) : ofMemory a ≤ Config.imageWords := by
  cases a with
  | silentAt k => exact Nat.le_of_lt (of_decide_eq_true h)
  | stored => exact Nat.zero_le _
  | other ws => exact Nat.le_of_eq (eq_of_beq h)

theorem ofWords_le_length (n : Nat) (a : WordsEnd) (h : a.hasLength n = true) : ofWords a ≤ n := by
  cases a <;> simp_all [ofWords, WordsEnd.hasLength]

theorem ofWords_le_most (n : Nat) (a : WordsEnd) (h : a.atMost n = true) : ofWords a ≤ n := by
  cases a <;> simp_all [ofWords, WordsEnd.atMost]

theorem ofRun_le (n : Nat) (a : RunEnd) (h : a.within n = true) : ofRun a ≤ n := by
  cases a <;> simp_all [ofRun, RunEnd.within] <;> omega

theorem powerOnOrExternalReset (holdInLow : Bool) : Statement (.powerOnOrExternalReset holdInLow) :=
  fun _ => Nat.zero_le _
theorem configImageReadDone (answer : MemoryAnswer) : Statement (.configImageReadDone answer) :=
  fun h => ofMemory_le answer h
theorem startSet (enables : BitVec 5) : Statement (.startSet enables) := fun _ => Nat.zero_le _
theorem startCleared (enables : BitVec 5) : Statement (.startCleared enables) := fun _ => Nat.zero_le _
theorem linkRestart (start : Bool) (enables : BitVec 5) : Statement (.linkRestart start enables) :=
  fun _ => Nat.zero_le _
theorem attentionEnablesWrite (enables : BitVec 5) : Statement (.attentionEnablesWrite enables) :=
  fun _ => Nat.zero_le _
theorem nudge (value : Word) : Statement (.nudge value) := fun _ => Nat.zero_le _
theorem attentionClear (value : Word) : Statement (.attentionClear value) := fun _ => Nat.zero_le _
theorem registerWrite (reg : Reg) (value : Word) : Statement (.registerWrite reg value) := fun _ => Nat.zero_le _
theorem anchorReadDone (answer : WordsEnd) : Statement (.anchorReadDone answer) :=
  fun h => Nat.le_trans (ofWords_le_length 6 answer h) (by decide)
theorem chainLookDue : Statement (.chainLookDue) := fun _ => Nat.zero_le _
theorem linkWordReadDone (answer : ReadEnd) : Statement (.linkWordReadDone answer) := fun _ => Nat.zero_le _
theorem orderHeaderReadDone (answer : ReadEnd) : Statement (.orderHeaderReadDone answer) := fun _ => Nat.zero_le _
theorem orderParamsReadDone (answer : WordsEnd) : Statement (.orderParamsReadDone answer) :=
  fun h => Nat.le_trans (ofWords_le_most 13 answer h) (by decide)
theorem orderTakenWriteDone (answer : WriteEnd) : Statement (.orderTakenWriteDone answer) := fun _ => Nat.zero_le _
theorem loadSite (slot : SlotIx) : Statement (.loadSite slot) := fun _ => Nat.zero_le _
theorem storeSite (slot : SlotIx) (wpHigh : Bool) : Statement (.storeSite slot wpHigh) := fun _ => Nat.zero_le _
theorem loadPlan (slot : SlotIx) : Statement (.loadPlan slot) := fun _ => Nat.zero_le _
theorem setMode (slot : SlotIx) : Statement (.setMode slot) := fun _ => Nat.zero_le _
theorem remoteCall (slot : SlotIx) : Statement (.remoteCall slot) := fun _ => Nat.zero_le _
theorem cancelCalls (slot : SlotIx) : Statement (.cancelCalls slot) := fun _ => Nat.zero_le _
theorem announce (slot : SlotIx) : Statement (.announce slot) := fun _ => Nat.zero_le _
theorem testStation (slot : SlotIx) : Statement (.testStation slot) := fun _ => Nat.zero_le _
theorem corridorHold (slot : SlotIx) : Statement (.corridorHold slot) := fun _ => Nat.zero_le _
theorem resultDetailWriteDone (answer : WriteEnd) : Statement (.resultDetailWriteDone answer) :=
  fun _ => Nat.zero_le _
theorem resultStateWriteDone (answer : WriteEnd) : Statement (.resultStateWriteDone answer) := fun _ => Nat.zero_le _
theorem imageWordReadDone (answer : ReadEnd) : Statement (.imageWordReadDone answer) := fun _ => Nat.zero_le _
theorem storeWriteDone (wpHigh : Bool) (answers : Bool) : Statement (.storeWriteDone wpHigh answers) :=
  fun _ => Nat.zero_le _
theorem storeReadbackDone (answer : MemoryAnswer) : Statement (.storeReadbackDone answer) := fun h => ofMemory_le answer h
theorem scanRoundDue : Statement (.scanRoundDue) := fun _ => Nat.zero_le _
theorem headReply (bytes : List Byte) : Statement (.headReply bytes) := fun _ => Nat.zero_le _
theorem stationReply (bytes : List Byte) : Statement (.stationReply bytes) := fun _ => Nat.zero_le _
theorem echoReply (bytes : List Byte) : Statement (.echoReply bytes) := fun _ => Nat.zero_le _
theorem replyWindowExpiry : Statement (.replyWindowExpiry) := fun _ => Nat.zero_le _
theorem replyCutOff : Statement (.replyCutOff) := fun _ => Nat.zero_le _
theorem strayLineBytes (bytes : List Byte) : Statement (.strayLineBytes bytes) := fun _ => Nat.zero_le _
theorem toneTestTimeout (st : Station) : Statement (.toneTestTimeout st) := fun _ => Nat.zero_le _
theorem callExpiry (c : Crossing) (src : Source) : Statement (.callExpiry c src) := fun _ => Nat.zero_le _
theorem startupExpiry (c : Crossing) : Statement (.startupExpiry c) := fun _ => Nat.zero_le _
theorem minGreenExpiry (c : Crossing) : Statement (.minGreenExpiry c) := fun _ => Nat.zero_le _
theorem amberExpiry (c : Crossing) : Statement (.amberExpiry c) := fun _ => Nat.zero_le _
theorem redBeforeWalkExpiry (c : Crossing) : Statement (.redBeforeWalkExpiry c) := fun _ => Nat.zero_le _
theorem walkEndExpiry (c : Crossing) : Statement (.walkEndExpiry c) := fun _ => Nat.zero_le _
theorem countdownSecond (c : Crossing) : Statement (.countdownSecond c) := fun _ => Nat.zero_le _
theorem clearanceExpiry (c : Crossing) : Statement (.clearanceExpiry c) := fun _ => Nat.zero_le _
theorem redAfterWalkExpiry (c : Crossing) : Statement (.redAfterWalkExpiry c) := fun _ => Nat.zero_le _
theorem cycleTick : Statement (.cycleTick) := fun _ => Nat.zero_le _
theorem holdInEdge (low : Bool) : Statement (.holdInEdge low) := fun _ => Nat.zero_le _
theorem holdInQualified : Statement (.holdInQualified) := fun _ => Nat.zero_le _
theorem holdTimerExpiry : Statement (.holdTimerExpiry) := fun _ => Nat.zero_le _
theorem cueGrant : Statement (.cueGrant) := fun _ => Nat.zero_le _
theorem phraseReadDone (n : Nat) (answer : ReadEnd) : Statement (.phraseReadDone n answer) := fun _ => Nat.zero_le _
theorem descriptorReadDone (answer : WordsEnd) : Statement (.descriptorReadDone answer) :=
  fun h => Nat.le_trans (ofWords_le_length 2 answer h) (by decide)
theorem stallRereadDue : Statement (.stallRereadDue) := fun _ => Nat.zero_le _
theorem recordWriteDone (answer : RunEnd) : Statement (.recordWriteDone answer) :=
  fun h => Nat.le_trans (ofRun_le 4 answer h) (by decide)
theorem flushTimerExpiry : Statement (.flushTimerExpiry) := fun _ => Nat.zero_le _
theorem bufferCloseWriteDone (answer : RunEnd) : Statement (.bufferCloseWriteDone answer) :=
  fun h => Nat.le_trans (ofRun_le 3 answer h) (by decide)
theorem statusPeriodDue : Statement (.statusPeriodDue) := fun _ => Nat.zero_le _
theorem statusWordWriteDone (answer : WriteEnd) : Statement (.statusWordWriteDone answer) := fun _ => Nat.zero_le _
theorem heldInReset : Statement (.heldInReset) := fun _ => Nat.zero_le _

end Sys2Proof.Laws.Shape
end

