-- ==== Sys2Proof/Laws/State.lean ====
section
/-! SUPPORT. The update of one table, field by field: what each named update makes of its own field, and that it leaves every other field. -/

namespace Sys2Proof.Machine

section
variable (s : State)

@[simp] theorem setCrossing_now (c : Crossing) (f : CrossingRecord → CrossingRecord) : (setCrossing c f s).now = s.now := rfl
@[simp] theorem setCrossing_held (c : Crossing) (f : CrossingRecord → CrossingRecord) : (setCrossing c f s).held = s.held := rfl
@[simp] theorem setCrossing_part (c : Crossing) (f : CrossingRecord → CrossingRecord) : (setCrossing c f s).part = s.part := rfl
@[simp] theorem setCrossing_safeOut (c : Crossing) (f : CrossingRecord → CrossingRecord) :
    (setCrossing c f s).safeOut = s.safeOut := rfl
@[simp] theorem setCrossing_wp (c : Crossing) (f : CrossingRecord → CrossingRecord) : (setCrossing c f s).wp = s.wp := rfl
@[simp] theorem setCrossing_regs (c : Crossing) (f : CrossingRecord → CrossingRecord) : (setCrossing c f s).regs = s.regs := rfl
@[simp] theorem setCrossing_site (c : Crossing) (f : CrossingRecord → CrossingRecord) : (setCrossing c f s).site = s.site := rfl
@[simp] theorem setCrossing_config (c : Crossing) (f : CrossingRecord → CrossingRecord) :
    (setCrossing c f s).config = s.config := rfl
@[simp] theorem setCrossing_line (c : Crossing) (f : CrossingRecord → CrossingRecord) : (setCrossing c f s).line = s.line := rfl
@[simp] theorem setCrossing_press (c : Crossing) (f : CrossingRecord → CrossingRecord) :
    (setCrossing c f s).press = s.press := rfl
@[simp] theorem setCrossing_calls (c : Crossing) (f : CrossingRecord → CrossingRecord) :
    (setCrossing c f s).calls = s.calls := rfl
@[simp] theorem setCrossing_lamps (c : Crossing) (f : CrossingRecord → CrossingRecord) :
    (setCrossing c f s).lamps = s.lamps := rfl
@[simp] theorem setCrossing_crossings (c : Crossing) (f : CrossingRecord → CrossingRecord) :
    (setCrossing c f s).crossings = upd s.crossings c f := rfl
@[simp] theorem setCrossing_plan (c : Crossing) (f : CrossingRecord → CrossingRecord) : (setCrossing c f s).plan = s.plan := rfl
@[simp] theorem setCrossing_hold (c : Crossing) (f : CrossingRecord → CrossingRecord) : (setCrossing c f s).hold = s.hold := rfl
@[simp] theorem setCrossing_proofs (c : Crossing) (f : CrossingRecord → CrossingRecord) :
    (setCrossing c f s).proofs = s.proofs := rfl
@[simp] theorem setCrossing_cues (c : Crossing) (f : CrossingRecord → CrossingRecord) : (setCrossing c f s).cues = s.cues := rfl
@[simp] theorem setCrossing_ann (c : Crossing) (f : CrossingRecord → CrossingRecord) : (setCrossing c f s).ann = s.ann := rfl
@[simp] theorem setCrossing_orders (c : Crossing) (f : CrossingRecord → CrossingRecord) :
    (setCrossing c f s).orders = s.orders := rfl
@[simp] theorem setCrossing_journal (c : Crossing) (f : CrossingRecord → CrossingRecord) :
    (setCrossing c f s).journal = s.journal := rfl
@[simp] theorem setCrossing_status (c : Crossing) (f : CrossingRecord → CrossingRecord) :
    (setCrossing c f s).status = s.status := rfl
@[simp] theorem setCrossing_street (c : Crossing) (f : CrossingRecord → CrossingRecord) :
    (setCrossing c f s).street = s.street := rfl
@[simp] theorem setCrossing_mem (c : Crossing) (f : CrossingRecord → CrossingRecord) : (setCrossing c f s).mem = s.mem := rfl
@[simp] theorem setCrossing_freeCount (c : Crossing) (f : CrossingRecord → CrossingRecord) :
    (setCrossing c f s).freeCount = s.freeCount := rfl
@[simp] theorem setCrossing_made (c : Crossing) (f : CrossingRecord → CrossingRecord) : (setCrossing c f s).made = s.made := rfl
@[simp] theorem setCrossing_pending (c : Crossing) (f : CrossingRecord → CrossingRecord) :
    (setCrossing c f s).pending = s.pending := rfl

@[simp] theorem setCalls_now (c : Crossing) (es : List Entry) : (setCalls c es s).now = s.now := rfl
@[simp] theorem setCalls_held (c : Crossing) (es : List Entry) : (setCalls c es s).held = s.held := rfl
@[simp] theorem setCalls_part (c : Crossing) (es : List Entry) : (setCalls c es s).part = s.part := rfl
@[simp] theorem setCalls_safeOut (c : Crossing) (es : List Entry) : (setCalls c es s).safeOut = s.safeOut := rfl
@[simp] theorem setCalls_wp (c : Crossing) (es : List Entry) : (setCalls c es s).wp = s.wp := rfl
@[simp] theorem setCalls_regs (c : Crossing) (es : List Entry) : (setCalls c es s).regs = s.regs := rfl
@[simp] theorem setCalls_site (c : Crossing) (es : List Entry) : (setCalls c es s).site = s.site := rfl
@[simp] theorem setCalls_config (c : Crossing) (es : List Entry) : (setCalls c es s).config = s.config := rfl
@[simp] theorem setCalls_line (c : Crossing) (es : List Entry) : (setCalls c es s).line = s.line := rfl
@[simp] theorem setCalls_press (c : Crossing) (es : List Entry) : (setCalls c es s).press = s.press := rfl
@[simp] theorem setCalls_calls (c : Crossing) (es : List Entry) : (setCalls c es s).calls = s.calls.set c es := rfl
@[simp] theorem setCalls_lamps (c : Crossing) (es : List Entry) : (setCalls c es s).lamps = s.lamps := rfl
@[simp] theorem setCalls_crossings (c : Crossing) (es : List Entry) : (setCalls c es s).crossings = s.crossings := rfl
@[simp] theorem setCalls_plan (c : Crossing) (es : List Entry) : (setCalls c es s).plan = s.plan := rfl
@[simp] theorem setCalls_hold (c : Crossing) (es : List Entry) : (setCalls c es s).hold = s.hold := rfl
@[simp] theorem setCalls_proofs (c : Crossing) (es : List Entry) : (setCalls c es s).proofs = s.proofs := rfl
@[simp] theorem setCalls_cues (c : Crossing) (es : List Entry) : (setCalls c es s).cues = s.cues := rfl
@[simp] theorem setCalls_ann (c : Crossing) (es : List Entry) : (setCalls c es s).ann = s.ann := rfl
@[simp] theorem setCalls_orders (c : Crossing) (es : List Entry) : (setCalls c es s).orders = s.orders := rfl
@[simp] theorem setCalls_journal (c : Crossing) (es : List Entry) : (setCalls c es s).journal = s.journal := rfl
@[simp] theorem setCalls_status (c : Crossing) (es : List Entry) : (setCalls c es s).status = s.status := rfl
@[simp] theorem setCalls_street (c : Crossing) (es : List Entry) : (setCalls c es s).street = s.street := rfl
@[simp] theorem setCalls_mem (c : Crossing) (es : List Entry) : (setCalls c es s).mem = s.mem := rfl
@[simp] theorem setCalls_freeCount (c : Crossing) (es : List Entry) : (setCalls c es s).freeCount = s.freeCount := rfl
@[simp] theorem setCalls_made (c : Crossing) (es : List Entry) : (setCalls c es s).made = s.made := rfl
@[simp] theorem setCalls_pending (c : Crossing) (es : List Entry) : (setCalls c es s).pending = s.pending := rfl

@[simp] theorem setLamp_now (st : Station) (b : Bool) : (setLamp st b s).now = s.now := rfl
@[simp] theorem setLamp_held (st : Station) (b : Bool) : (setLamp st b s).held = s.held := rfl
@[simp] theorem setLamp_part (st : Station) (b : Bool) : (setLamp st b s).part = s.part := rfl
@[simp] theorem setLamp_safeOut (st : Station) (b : Bool) : (setLamp st b s).safeOut = s.safeOut := rfl
@[simp] theorem setLamp_wp (st : Station) (b : Bool) : (setLamp st b s).wp = s.wp := rfl
@[simp] theorem setLamp_regs (st : Station) (b : Bool) : (setLamp st b s).regs = s.regs := rfl
@[simp] theorem setLamp_site (st : Station) (b : Bool) : (setLamp st b s).site = s.site := rfl
@[simp] theorem setLamp_config (st : Station) (b : Bool) : (setLamp st b s).config = s.config := rfl
@[simp] theorem setLamp_line (st : Station) (b : Bool) : (setLamp st b s).line = s.line := rfl
@[simp] theorem setLamp_press (st : Station) (b : Bool) : (setLamp st b s).press = s.press := rfl
@[simp] theorem setLamp_calls (st : Station) (b : Bool) : (setLamp st b s).calls = s.calls := rfl
@[simp] theorem setLamp_lamps (st : Station) (b : Bool) : (setLamp st b s).lamps = s.lamps.set st b := rfl
@[simp] theorem setLamp_crossings (st : Station) (b : Bool) : (setLamp st b s).crossings = s.crossings := rfl
@[simp] theorem setLamp_plan (st : Station) (b : Bool) : (setLamp st b s).plan = s.plan := rfl
@[simp] theorem setLamp_hold (st : Station) (b : Bool) : (setLamp st b s).hold = s.hold := rfl
@[simp] theorem setLamp_proofs (st : Station) (b : Bool) : (setLamp st b s).proofs = s.proofs := rfl
@[simp] theorem setLamp_cues (st : Station) (b : Bool) : (setLamp st b s).cues = s.cues := rfl
@[simp] theorem setLamp_ann (st : Station) (b : Bool) : (setLamp st b s).ann = s.ann := rfl
@[simp] theorem setLamp_orders (st : Station) (b : Bool) : (setLamp st b s).orders = s.orders := rfl
@[simp] theorem setLamp_journal (st : Station) (b : Bool) : (setLamp st b s).journal = s.journal := rfl
@[simp] theorem setLamp_status (st : Station) (b : Bool) : (setLamp st b s).status = s.status := rfl
@[simp] theorem setLamp_street (st : Station) (b : Bool) : (setLamp st b s).street = s.street := rfl
@[simp] theorem setLamp_mem (st : Station) (b : Bool) : (setLamp st b s).mem = s.mem := rfl
@[simp] theorem setLamp_freeCount (st : Station) (b : Bool) : (setLamp st b s).freeCount = s.freeCount := rfl
@[simp] theorem setLamp_made (st : Station) (b : Bool) : (setLamp st b s).made = s.made := rfl
@[simp] theorem setLamp_pending (st : Station) (b : Bool) : (setLamp st b s).pending = s.pending := rfl

@[simp] theorem lampsOff_now (c : Crossing) : (lampsOff c s).now = s.now := rfl
@[simp] theorem lampsOff_held (c : Crossing) : (lampsOff c s).held = s.held := rfl
@[simp] theorem lampsOff_part (c : Crossing) : (lampsOff c s).part = s.part := rfl
@[simp] theorem lampsOff_safeOut (c : Crossing) : (lampsOff c s).safeOut = s.safeOut := rfl
@[simp] theorem lampsOff_wp (c : Crossing) : (lampsOff c s).wp = s.wp := rfl
@[simp] theorem lampsOff_regs (c : Crossing) : (lampsOff c s).regs = s.regs := rfl
@[simp] theorem lampsOff_site (c : Crossing) : (lampsOff c s).site = s.site := rfl
@[simp] theorem lampsOff_config (c : Crossing) : (lampsOff c s).config = s.config := rfl
@[simp] theorem lampsOff_line (c : Crossing) : (lampsOff c s).line = s.line := rfl
@[simp] theorem lampsOff_press (c : Crossing) : (lampsOff c s).press = s.press := rfl
@[simp] theorem lampsOff_calls (c : Crossing) : (lampsOff c s).calls = s.calls := rfl
@[simp] theorem lampsOff_lamps (c : Crossing) : (lampsOff c s).lamps = setAll s.lamps (stationsOf s c) false := rfl
@[simp] theorem lampsOff_crossings (c : Crossing) : (lampsOff c s).crossings = s.crossings := rfl
@[simp] theorem lampsOff_plan (c : Crossing) : (lampsOff c s).plan = s.plan := rfl
@[simp] theorem lampsOff_hold (c : Crossing) : (lampsOff c s).hold = s.hold := rfl
@[simp] theorem lampsOff_proofs (c : Crossing) : (lampsOff c s).proofs = s.proofs := rfl
@[simp] theorem lampsOff_cues (c : Crossing) : (lampsOff c s).cues = s.cues := rfl
@[simp] theorem lampsOff_ann (c : Crossing) : (lampsOff c s).ann = s.ann := rfl
@[simp] theorem lampsOff_orders (c : Crossing) : (lampsOff c s).orders = s.orders := rfl
@[simp] theorem lampsOff_journal (c : Crossing) : (lampsOff c s).journal = s.journal := rfl
@[simp] theorem lampsOff_status (c : Crossing) : (lampsOff c s).status = s.status := rfl
@[simp] theorem lampsOff_street (c : Crossing) : (lampsOff c s).street = s.street := rfl
@[simp] theorem lampsOff_mem (c : Crossing) : (lampsOff c s).mem = s.mem := rfl
@[simp] theorem lampsOff_freeCount (c : Crossing) : (lampsOff c s).freeCount = s.freeCount := rfl
@[simp] theorem lampsOff_made (c : Crossing) : (lampsOff c s).made = s.made := rfl
@[simp] theorem lampsOff_pending (c : Crossing) : (lampsOff c s).pending = s.pending := rfl

@[simp] theorem setProof_now (c : Crossing) (f : ProofRec → ProofRec) : (setProof c f s).now = s.now := rfl
@[simp] theorem setProof_held (c : Crossing) (f : ProofRec → ProofRec) : (setProof c f s).held = s.held := rfl
@[simp] theorem setProof_part (c : Crossing) (f : ProofRec → ProofRec) : (setProof c f s).part = s.part := rfl
@[simp] theorem setProof_safeOut (c : Crossing) (f : ProofRec → ProofRec) : (setProof c f s).safeOut = s.safeOut := rfl
@[simp] theorem setProof_wp (c : Crossing) (f : ProofRec → ProofRec) : (setProof c f s).wp = s.wp := rfl
@[simp] theorem setProof_regs (c : Crossing) (f : ProofRec → ProofRec) : (setProof c f s).regs = s.regs := rfl
@[simp] theorem setProof_site (c : Crossing) (f : ProofRec → ProofRec) : (setProof c f s).site = s.site := rfl
@[simp] theorem setProof_config (c : Crossing) (f : ProofRec → ProofRec) : (setProof c f s).config = s.config := rfl
@[simp] theorem setProof_line (c : Crossing) (f : ProofRec → ProofRec) : (setProof c f s).line = s.line := rfl
@[simp] theorem setProof_press (c : Crossing) (f : ProofRec → ProofRec) : (setProof c f s).press = s.press := rfl
@[simp] theorem setProof_calls (c : Crossing) (f : ProofRec → ProofRec) : (setProof c f s).calls = s.calls := rfl
@[simp] theorem setProof_lamps (c : Crossing) (f : ProofRec → ProofRec) : (setProof c f s).lamps = s.lamps := rfl
@[simp] theorem setProof_crossings (c : Crossing) (f : ProofRec → ProofRec) : (setProof c f s).crossings = s.crossings := rfl
@[simp] theorem setProof_plan (c : Crossing) (f : ProofRec → ProofRec) : (setProof c f s).plan = s.plan := rfl
@[simp] theorem setProof_hold (c : Crossing) (f : ProofRec → ProofRec) : (setProof c f s).hold = s.hold := rfl
@[simp] theorem setProof_proofs (c : Crossing) (f : ProofRec → ProofRec) :
    (setProof c f s).proofs = upd s.proofs c (Option.map f) := rfl
@[simp] theorem setProof_cues (c : Crossing) (f : ProofRec → ProofRec) : (setProof c f s).cues = s.cues := rfl
@[simp] theorem setProof_ann (c : Crossing) (f : ProofRec → ProofRec) : (setProof c f s).ann = s.ann := rfl
@[simp] theorem setProof_orders (c : Crossing) (f : ProofRec → ProofRec) : (setProof c f s).orders = s.orders := rfl
@[simp] theorem setProof_journal (c : Crossing) (f : ProofRec → ProofRec) : (setProof c f s).journal = s.journal := rfl
@[simp] theorem setProof_status (c : Crossing) (f : ProofRec → ProofRec) : (setProof c f s).status = s.status := rfl
@[simp] theorem setProof_street (c : Crossing) (f : ProofRec → ProofRec) : (setProof c f s).street = s.street := rfl
@[simp] theorem setProof_mem (c : Crossing) (f : ProofRec → ProofRec) : (setProof c f s).mem = s.mem := rfl
@[simp] theorem setProof_freeCount (c : Crossing) (f : ProofRec → ProofRec) : (setProof c f s).freeCount = s.freeCount := rfl
@[simp] theorem setProof_made (c : Crossing) (f : ProofRec → ProofRec) : (setProof c f s).made = s.made := rfl
@[simp] theorem setProof_pending (c : Crossing) (f : ProofRec → ProofRec) : (setProof c f s).pending = s.pending := rfl

@[simp] theorem setContext_now (st : Station) (x : Option Context) : (setContext st x s).now = s.now := rfl
@[simp] theorem setContext_held (st : Station) (x : Option Context) : (setContext st x s).held = s.held := rfl
@[simp] theorem setContext_part (st : Station) (x : Option Context) : (setContext st x s).part = s.part := rfl
@[simp] theorem setContext_safeOut (st : Station) (x : Option Context) : (setContext st x s).safeOut = s.safeOut := rfl
@[simp] theorem setContext_wp (st : Station) (x : Option Context) : (setContext st x s).wp = s.wp := rfl
@[simp] theorem setContext_regs (st : Station) (x : Option Context) : (setContext st x s).regs = s.regs := rfl
@[simp] theorem setContext_site (st : Station) (x : Option Context) : (setContext st x s).site = s.site := rfl
@[simp] theorem setContext_config (st : Station) (x : Option Context) : (setContext st x s).config = s.config := rfl
@[simp] theorem setContext_line (st : Station) (x : Option Context) : (setContext st x s).line = s.line := rfl
@[simp] theorem setContext_press (st : Station) (x : Option Context) : (setContext st x s).press = s.press := rfl
@[simp] theorem setContext_calls (st : Station) (x : Option Context) : (setContext st x s).calls = s.calls := rfl
@[simp] theorem setContext_lamps (st : Station) (x : Option Context) : (setContext st x s).lamps = s.lamps := rfl
@[simp] theorem setContext_crossings (st : Station) (x : Option Context) : (setContext st x s).crossings = s.crossings := rfl
@[simp] theorem setContext_plan (st : Station) (x : Option Context) : (setContext st x s).plan = s.plan := rfl
@[simp] theorem setContext_hold (st : Station) (x : Option Context) : (setContext st x s).hold = s.hold := rfl
@[simp] theorem setContext_proofs (st : Station) (x : Option Context) : (setContext st x s).proofs = s.proofs := rfl
@[simp] theorem setContext_cues (st : Station) (x : Option Context) : (setContext st x s).cues = s.cues := rfl
@[simp] theorem setContext_ann (st : Station) (x : Option Context) :
    (setContext st x s).ann = { s.ann with contexts := s.ann.contexts.set st x } := rfl
@[simp] theorem setContext_orders (st : Station) (x : Option Context) : (setContext st x s).orders = s.orders := rfl
@[simp] theorem setContext_journal (st : Station) (x : Option Context) : (setContext st x s).journal = s.journal := rfl
@[simp] theorem setContext_status (st : Station) (x : Option Context) : (setContext st x s).status = s.status := rfl
@[simp] theorem setContext_street (st : Station) (x : Option Context) : (setContext st x s).street = s.street := rfl
@[simp] theorem setContext_mem (st : Station) (x : Option Context) : (setContext st x s).mem = s.mem := rfl
@[simp] theorem setContext_freeCount (st : Station) (x : Option Context) : (setContext st x s).freeCount = s.freeCount := rfl
@[simp] theorem setContext_made (st : Station) (x : Option Context) : (setContext st x s).made = s.made := rfl
@[simp] theorem setContext_pending (st : Station) (x : Option Context) : (setContext st x s).pending = s.pending := rfl

@[simp] theorem setFlush_now (st : Station) : (setFlush st s).now = s.now := rfl
@[simp] theorem setFlush_held (st : Station) : (setFlush st s).held = s.held := rfl
@[simp] theorem setFlush_part (st : Station) : (setFlush st s).part = s.part := rfl
@[simp] theorem setFlush_safeOut (st : Station) : (setFlush st s).safeOut = s.safeOut := rfl
@[simp] theorem setFlush_wp (st : Station) : (setFlush st s).wp = s.wp := rfl
@[simp] theorem setFlush_regs (st : Station) : (setFlush st s).regs = s.regs := rfl
@[simp] theorem setFlush_site (st : Station) : (setFlush st s).site = s.site := rfl
@[simp] theorem setFlush_config (st : Station) : (setFlush st s).config = s.config := rfl
@[simp] theorem setFlush_line (st : Station) :
    (setFlush st s).line = { s.line with flushPending := s.line.flushPending.set st true } := rfl
@[simp] theorem setFlush_press (st : Station) : (setFlush st s).press = s.press := rfl
@[simp] theorem setFlush_calls (st : Station) : (setFlush st s).calls = s.calls := rfl
@[simp] theorem setFlush_lamps (st : Station) : (setFlush st s).lamps = s.lamps := rfl
@[simp] theorem setFlush_crossings (st : Station) : (setFlush st s).crossings = s.crossings := rfl
@[simp] theorem setFlush_plan (st : Station) : (setFlush st s).plan = s.plan := rfl
@[simp] theorem setFlush_hold (st : Station) : (setFlush st s).hold = s.hold := rfl
@[simp] theorem setFlush_proofs (st : Station) : (setFlush st s).proofs = s.proofs := rfl
@[simp] theorem setFlush_cues (st : Station) : (setFlush st s).cues = s.cues := rfl
@[simp] theorem setFlush_ann (st : Station) : (setFlush st s).ann = s.ann := rfl
@[simp] theorem setFlush_orders (st : Station) : (setFlush st s).orders = s.orders := rfl
@[simp] theorem setFlush_journal (st : Station) : (setFlush st s).journal = s.journal := rfl
@[simp] theorem setFlush_status (st : Station) : (setFlush st s).status = s.status := rfl
@[simp] theorem setFlush_street (st : Station) : (setFlush st s).street = s.street := rfl
@[simp] theorem setFlush_mem (st : Station) : (setFlush st s).mem = s.mem := rfl
@[simp] theorem setFlush_freeCount (st : Station) : (setFlush st s).freeCount = s.freeCount := rfl
@[simp] theorem setFlush_made (st : Station) : (setFlush st s).made = s.made := rfl
@[simp] theorem setFlush_pending (st : Station) : (setFlush st s).pending = s.pending := rfl

@[simp] theorem setTest_now (st : Station) (x : TestState) : (setTest st x s).now = s.now := rfl
@[simp] theorem setTest_held (st : Station) (x : TestState) : (setTest st x s).held = s.held := rfl
@[simp] theorem setTest_part (st : Station) (x : TestState) : (setTest st x s).part = s.part := rfl
@[simp] theorem setTest_safeOut (st : Station) (x : TestState) : (setTest st x s).safeOut = s.safeOut := rfl
@[simp] theorem setTest_wp (st : Station) (x : TestState) : (setTest st x s).wp = s.wp := rfl
@[simp] theorem setTest_regs (st : Station) (x : TestState) : (setTest st x s).regs = s.regs := rfl
@[simp] theorem setTest_site (st : Station) (x : TestState) : (setTest st x s).site = s.site := rfl
@[simp] theorem setTest_config (st : Station) (x : TestState) : (setTest st x s).config = s.config := rfl
@[simp] theorem setTest_line (st : Station) (x : TestState) :
    (setTest st x s).line = { s.line with tests := s.line.tests.set st x } := rfl
@[simp] theorem setTest_press (st : Station) (x : TestState) : (setTest st x s).press = s.press := rfl
@[simp] theorem setTest_calls (st : Station) (x : TestState) : (setTest st x s).calls = s.calls := rfl
@[simp] theorem setTest_lamps (st : Station) (x : TestState) : (setTest st x s).lamps = s.lamps := rfl
@[simp] theorem setTest_crossings (st : Station) (x : TestState) : (setTest st x s).crossings = s.crossings := rfl
@[simp] theorem setTest_plan (st : Station) (x : TestState) : (setTest st x s).plan = s.plan := rfl
@[simp] theorem setTest_hold (st : Station) (x : TestState) : (setTest st x s).hold = s.hold := rfl
@[simp] theorem setTest_proofs (st : Station) (x : TestState) : (setTest st x s).proofs = s.proofs := rfl
@[simp] theorem setTest_cues (st : Station) (x : TestState) : (setTest st x s).cues = s.cues := rfl
@[simp] theorem setTest_ann (st : Station) (x : TestState) : (setTest st x s).ann = s.ann := rfl
@[simp] theorem setTest_orders (st : Station) (x : TestState) : (setTest st x s).orders = s.orders := rfl
@[simp] theorem setTest_journal (st : Station) (x : TestState) : (setTest st x s).journal = s.journal := rfl
@[simp] theorem setTest_status (st : Station) (x : TestState) : (setTest st x s).status = s.status := rfl
@[simp] theorem setTest_street (st : Station) (x : TestState) : (setTest st x s).street = s.street := rfl
@[simp] theorem setTest_mem (st : Station) (x : TestState) : (setTest st x s).mem = s.mem := rfl
@[simp] theorem setTest_freeCount (st : Station) (x : TestState) : (setTest st x s).freeCount = s.freeCount := rfl
@[simp] theorem setTest_made (st : Station) (x : TestState) : (setTest st x s).made = s.made := rfl
@[simp] theorem setTest_pending (st : Station) (x : TestState) : (setTest st x s).pending = s.pending := rfl

@[simp] theorem setPress_now (st : Station) (f : PressState → PressState) : (setPress st f s).now = s.now := rfl
@[simp] theorem setPress_held (st : Station) (f : PressState → PressState) : (setPress st f s).held = s.held := rfl
@[simp] theorem setPress_part (st : Station) (f : PressState → PressState) : (setPress st f s).part = s.part := rfl
@[simp] theorem setPress_safeOut (st : Station) (f : PressState → PressState) : (setPress st f s).safeOut = s.safeOut := rfl
@[simp] theorem setPress_wp (st : Station) (f : PressState → PressState) : (setPress st f s).wp = s.wp := rfl
@[simp] theorem setPress_regs (st : Station) (f : PressState → PressState) : (setPress st f s).regs = s.regs := rfl
@[simp] theorem setPress_site (st : Station) (f : PressState → PressState) : (setPress st f s).site = s.site := rfl
@[simp] theorem setPress_config (st : Station) (f : PressState → PressState) : (setPress st f s).config = s.config := rfl
@[simp] theorem setPress_line (st : Station) (f : PressState → PressState) : (setPress st f s).line = s.line := rfl
@[simp] theorem setPress_press (st : Station) (f : PressState → PressState) : (setPress st f s).press = upd s.press st f := rfl
@[simp] theorem setPress_calls (st : Station) (f : PressState → PressState) : (setPress st f s).calls = s.calls := rfl
@[simp] theorem setPress_lamps (st : Station) (f : PressState → PressState) : (setPress st f s).lamps = s.lamps := rfl
@[simp] theorem setPress_crossings (st : Station) (f : PressState → PressState) :
    (setPress st f s).crossings = s.crossings := rfl
@[simp] theorem setPress_plan (st : Station) (f : PressState → PressState) : (setPress st f s).plan = s.plan := rfl
@[simp] theorem setPress_hold (st : Station) (f : PressState → PressState) : (setPress st f s).hold = s.hold := rfl
@[simp] theorem setPress_proofs (st : Station) (f : PressState → PressState) : (setPress st f s).proofs = s.proofs := rfl
@[simp] theorem setPress_cues (st : Station) (f : PressState → PressState) : (setPress st f s).cues = s.cues := rfl
@[simp] theorem setPress_ann (st : Station) (f : PressState → PressState) : (setPress st f s).ann = s.ann := rfl
@[simp] theorem setPress_orders (st : Station) (f : PressState → PressState) : (setPress st f s).orders = s.orders := rfl
@[simp] theorem setPress_journal (st : Station) (f : PressState → PressState) : (setPress st f s).journal = s.journal := rfl
@[simp] theorem setPress_status (st : Station) (f : PressState → PressState) : (setPress st f s).status = s.status := rfl
@[simp] theorem setPress_street (st : Station) (f : PressState → PressState) : (setPress st f s).street = s.street := rfl
@[simp] theorem setPress_mem (st : Station) (f : PressState → PressState) : (setPress st f s).mem = s.mem := rfl
@[simp] theorem setPress_freeCount (st : Station) (f : PressState → PressState) :
    (setPress st f s).freeCount = s.freeCount := rfl
@[simp] theorem setPress_made (st : Station) (f : PressState → PressState) : (setPress st f s).made = s.made := rfl
@[simp] theorem setPress_pending (st : Station) (f : PressState → PressState) : (setPress st f s).pending = s.pending := rfl

@[simp] theorem setNode_now (a : NodeAddr) (f : NodeEntry → NodeEntry) : (setNode a f s).now = s.now := rfl
@[simp] theorem setNode_held (a : NodeAddr) (f : NodeEntry → NodeEntry) : (setNode a f s).held = s.held := rfl
@[simp] theorem setNode_part (a : NodeAddr) (f : NodeEntry → NodeEntry) : (setNode a f s).part = s.part := rfl
@[simp] theorem setNode_safeOut (a : NodeAddr) (f : NodeEntry → NodeEntry) : (setNode a f s).safeOut = s.safeOut := rfl
@[simp] theorem setNode_wp (a : NodeAddr) (f : NodeEntry → NodeEntry) : (setNode a f s).wp = s.wp := rfl
@[simp] theorem setNode_regs (a : NodeAddr) (f : NodeEntry → NodeEntry) : (setNode a f s).regs = s.regs := rfl
@[simp] theorem setNode_site (a : NodeAddr) (f : NodeEntry → NodeEntry) : (setNode a f s).site = s.site := rfl
@[simp] theorem setNode_config (a : NodeAddr) (f : NodeEntry → NodeEntry) : (setNode a f s).config = s.config := rfl
@[simp] theorem setNode_line (a : NodeAddr) (f : NodeEntry → NodeEntry) :
    (setNode a f s).line = { s.line with nodes := upd s.line.nodes a (Option.map f) } := rfl
@[simp] theorem setNode_press (a : NodeAddr) (f : NodeEntry → NodeEntry) : (setNode a f s).press = s.press := rfl
@[simp] theorem setNode_calls (a : NodeAddr) (f : NodeEntry → NodeEntry) : (setNode a f s).calls = s.calls := rfl
@[simp] theorem setNode_lamps (a : NodeAddr) (f : NodeEntry → NodeEntry) : (setNode a f s).lamps = s.lamps := rfl
@[simp] theorem setNode_crossings (a : NodeAddr) (f : NodeEntry → NodeEntry) : (setNode a f s).crossings = s.crossings := rfl
@[simp] theorem setNode_plan (a : NodeAddr) (f : NodeEntry → NodeEntry) : (setNode a f s).plan = s.plan := rfl
@[simp] theorem setNode_hold (a : NodeAddr) (f : NodeEntry → NodeEntry) : (setNode a f s).hold = s.hold := rfl
@[simp] theorem setNode_proofs (a : NodeAddr) (f : NodeEntry → NodeEntry) : (setNode a f s).proofs = s.proofs := rfl
@[simp] theorem setNode_cues (a : NodeAddr) (f : NodeEntry → NodeEntry) : (setNode a f s).cues = s.cues := rfl
@[simp] theorem setNode_ann (a : NodeAddr) (f : NodeEntry → NodeEntry) : (setNode a f s).ann = s.ann := rfl
@[simp] theorem setNode_orders (a : NodeAddr) (f : NodeEntry → NodeEntry) : (setNode a f s).orders = s.orders := rfl
@[simp] theorem setNode_journal (a : NodeAddr) (f : NodeEntry → NodeEntry) : (setNode a f s).journal = s.journal := rfl
@[simp] theorem setNode_status (a : NodeAddr) (f : NodeEntry → NodeEntry) : (setNode a f s).status = s.status := rfl
@[simp] theorem setNode_street (a : NodeAddr) (f : NodeEntry → NodeEntry) : (setNode a f s).street = s.street := rfl
@[simp] theorem setNode_mem (a : NodeAddr) (f : NodeEntry → NodeEntry) : (setNode a f s).mem = s.mem := rfl
@[simp] theorem setNode_freeCount (a : NodeAddr) (f : NodeEntry → NodeEntry) : (setNode a f s).freeCount = s.freeCount := rfl
@[simp] theorem setNode_made (a : NodeAddr) (f : NodeEntry → NodeEntry) : (setNode a f s).made = s.made := rfl
@[simp] theorem setNode_pending (a : NodeAddr) (f : NodeEntry → NodeEntry) : (setNode a f s).pending = s.pending := rfl

@[simp] theorem clearAcks_now (c : Crossing) : (clearAcks c s).now = s.now := rfl
@[simp] theorem clearAcks_held (c : Crossing) : (clearAcks c s).held = s.held := rfl
@[simp] theorem clearAcks_part (c : Crossing) : (clearAcks c s).part = s.part := rfl
@[simp] theorem clearAcks_safeOut (c : Crossing) : (clearAcks c s).safeOut = s.safeOut := rfl
@[simp] theorem clearAcks_wp (c : Crossing) : (clearAcks c s).wp = s.wp := rfl
@[simp] theorem clearAcks_regs (c : Crossing) : (clearAcks c s).regs = s.regs := rfl
@[simp] theorem clearAcks_site (c : Crossing) : (clearAcks c s).site = s.site := rfl
@[simp] theorem clearAcks_config (c : Crossing) : (clearAcks c s).config = s.config := rfl
@[simp] theorem clearAcks_line (c : Crossing) :
    (clearAcks c s).line = { s.line with ackPending := setAll s.line.ackPending (stationsOf s c) false } := rfl
@[simp] theorem clearAcks_press (c : Crossing) : (clearAcks c s).press = s.press := rfl
@[simp] theorem clearAcks_calls (c : Crossing) : (clearAcks c s).calls = s.calls := rfl
@[simp] theorem clearAcks_lamps (c : Crossing) : (clearAcks c s).lamps = s.lamps := rfl
@[simp] theorem clearAcks_crossings (c : Crossing) : (clearAcks c s).crossings = s.crossings := rfl
@[simp] theorem clearAcks_plan (c : Crossing) : (clearAcks c s).plan = s.plan := rfl
@[simp] theorem clearAcks_hold (c : Crossing) : (clearAcks c s).hold = s.hold := rfl
@[simp] theorem clearAcks_proofs (c : Crossing) : (clearAcks c s).proofs = s.proofs := rfl
@[simp] theorem clearAcks_cues (c : Crossing) : (clearAcks c s).cues = s.cues := rfl
@[simp] theorem clearAcks_ann (c : Crossing) : (clearAcks c s).ann = s.ann := rfl
@[simp] theorem clearAcks_orders (c : Crossing) : (clearAcks c s).orders = s.orders := rfl
@[simp] theorem clearAcks_journal (c : Crossing) : (clearAcks c s).journal = s.journal := rfl
@[simp] theorem clearAcks_status (c : Crossing) : (clearAcks c s).status = s.status := rfl
@[simp] theorem clearAcks_street (c : Crossing) : (clearAcks c s).street = s.street := rfl
@[simp] theorem clearAcks_mem (c : Crossing) : (clearAcks c s).mem = s.mem := rfl
@[simp] theorem clearAcks_freeCount (c : Crossing) : (clearAcks c s).freeCount = s.freeCount := rfl
@[simp] theorem clearAcks_made (c : Crossing) : (clearAcks c s).made = s.made := rfl
@[simp] theorem clearAcks_pending (c : Crossing) : (clearAcks c s).pending = s.pending := rfl

@[simp] theorem raise_now (a : Attention) : (raise a s).now = s.now := rfl
@[simp] theorem raise_held (a : Attention) : (raise a s).held = s.held := rfl
@[simp] theorem raise_part (a : Attention) : (raise a s).part = s.part := rfl
@[simp] theorem raise_safeOut (a : Attention) : (raise a s).safeOut = s.safeOut := rfl
@[simp] theorem raise_wp (a : Attention) : (raise a s).wp = s.wp := rfl
@[simp] theorem raise_regs (a : Attention) :
    (raise a s).regs = { s.regs with attention := s.regs.attention ||| (1#5 <<< a.bit) } := rfl
@[simp] theorem raise_site (a : Attention) : (raise a s).site = s.site := rfl
@[simp] theorem raise_config (a : Attention) : (raise a s).config = s.config := rfl
@[simp] theorem raise_line (a : Attention) : (raise a s).line = s.line := rfl
@[simp] theorem raise_press (a : Attention) : (raise a s).press = s.press := rfl
@[simp] theorem raise_calls (a : Attention) : (raise a s).calls = s.calls := rfl
@[simp] theorem raise_lamps (a : Attention) : (raise a s).lamps = s.lamps := rfl
@[simp] theorem raise_crossings (a : Attention) : (raise a s).crossings = s.crossings := rfl
@[simp] theorem raise_plan (a : Attention) : (raise a s).plan = s.plan := rfl
@[simp] theorem raise_hold (a : Attention) : (raise a s).hold = s.hold := rfl
@[simp] theorem raise_proofs (a : Attention) : (raise a s).proofs = s.proofs := rfl
@[simp] theorem raise_cues (a : Attention) : (raise a s).cues = s.cues := rfl
@[simp] theorem raise_ann (a : Attention) : (raise a s).ann = s.ann := rfl
@[simp] theorem raise_orders (a : Attention) : (raise a s).orders = s.orders := rfl
@[simp] theorem raise_journal (a : Attention) : (raise a s).journal = s.journal := rfl
@[simp] theorem raise_status (a : Attention) : (raise a s).status = s.status := rfl
@[simp] theorem raise_street (a : Attention) : (raise a s).street = s.street := rfl
@[simp] theorem raise_mem (a : Attention) : (raise a s).mem = s.mem := rfl
@[simp] theorem raise_freeCount (a : Attention) : (raise a s).freeCount = s.freeCount := rfl
@[simp] theorem raise_made (a : Attention) : (raise a s).made = s.made := rfl
@[simp] theorem raise_pending (a : Attention) : (raise a s).pending = s.pending := rfl

@[simp] theorem clearAttention_now (w : Word) : (clearAttention w s).now = s.now := rfl
@[simp] theorem clearAttention_held (w : Word) : (clearAttention w s).held = s.held := rfl
@[simp] theorem clearAttention_part (w : Word) : (clearAttention w s).part = s.part := rfl
@[simp] theorem clearAttention_safeOut (w : Word) : (clearAttention w s).safeOut = s.safeOut := rfl
@[simp] theorem clearAttention_wp (w : Word) : (clearAttention w s).wp = s.wp := rfl
@[simp] theorem clearAttention_regs (w : Word) :
    (clearAttention w s).regs = { s.regs with attention := s.regs.attention &&& ~~~ (w.truncate 5) } := rfl
@[simp] theorem clearAttention_site (w : Word) : (clearAttention w s).site = s.site := rfl
@[simp] theorem clearAttention_config (w : Word) : (clearAttention w s).config = s.config := rfl
@[simp] theorem clearAttention_line (w : Word) : (clearAttention w s).line = s.line := rfl
@[simp] theorem clearAttention_press (w : Word) : (clearAttention w s).press = s.press := rfl
@[simp] theorem clearAttention_calls (w : Word) : (clearAttention w s).calls = s.calls := rfl
@[simp] theorem clearAttention_lamps (w : Word) : (clearAttention w s).lamps = s.lamps := rfl
@[simp] theorem clearAttention_crossings (w : Word) : (clearAttention w s).crossings = s.crossings := rfl
@[simp] theorem clearAttention_plan (w : Word) : (clearAttention w s).plan = s.plan := rfl
@[simp] theorem clearAttention_hold (w : Word) : (clearAttention w s).hold = s.hold := rfl
@[simp] theorem clearAttention_proofs (w : Word) : (clearAttention w s).proofs = s.proofs := rfl
@[simp] theorem clearAttention_cues (w : Word) : (clearAttention w s).cues = s.cues := rfl
@[simp] theorem clearAttention_ann (w : Word) : (clearAttention w s).ann = s.ann := rfl
@[simp] theorem clearAttention_orders (w : Word) : (clearAttention w s).orders = s.orders := rfl
@[simp] theorem clearAttention_journal (w : Word) : (clearAttention w s).journal = s.journal := rfl
@[simp] theorem clearAttention_status (w : Word) : (clearAttention w s).status = s.status := rfl
@[simp] theorem clearAttention_street (w : Word) : (clearAttention w s).street = s.street := rfl
@[simp] theorem clearAttention_mem (w : Word) : (clearAttention w s).mem = s.mem := rfl
@[simp] theorem clearAttention_freeCount (w : Word) : (clearAttention w s).freeCount = s.freeCount := rfl
@[simp] theorem clearAttention_made (w : Word) : (clearAttention w s).made = s.made := rfl
@[simp] theorem clearAttention_pending (w : Word) : (clearAttention w s).pending = s.pending := rfl

@[simp] theorem drawn_now : (drawn s).now = s.now := rfl
@[simp] theorem drawn_held : (drawn s).held = s.held := rfl
@[simp] theorem drawn_part : (drawn s).part = s.part := rfl
@[simp] theorem drawn_safeOut : (drawn s).safeOut = s.safeOut := rfl
@[simp] theorem drawn_wp : (drawn s).wp = s.wp := rfl
@[simp] theorem drawn_regs : (drawn s).regs = s.regs := rfl
@[simp] theorem drawn_site : (drawn s).site = s.site := rfl
@[simp] theorem drawn_config : (drawn s).config = s.config := rfl
@[simp] theorem drawn_line : (drawn s).line = s.line := rfl
@[simp] theorem drawn_press : (drawn s).press = s.press := rfl
@[simp] theorem drawn_calls : (drawn s).calls = s.calls := rfl
@[simp] theorem drawn_lamps : (drawn s).lamps = s.lamps := rfl
@[simp] theorem drawn_crossings : (drawn s).crossings = s.crossings := rfl
@[simp] theorem drawn_plan : (drawn s).plan = s.plan := rfl
@[simp] theorem drawn_hold : (drawn s).hold = s.hold := rfl
@[simp] theorem drawn_proofs : (drawn s).proofs = s.proofs := rfl
@[simp] theorem drawn_cues : (drawn s).cues = s.cues := rfl
@[simp] theorem drawn_ann : (drawn s).ann = s.ann := rfl
@[simp] theorem drawn_orders : (drawn s).orders = s.orders := rfl
@[simp] theorem drawn_journal : (drawn s).journal = s.journal := rfl
@[simp] theorem drawn_status : (drawn s).status = s.status := rfl
@[simp] theorem drawn_street : (drawn s).street = s.street := rfl
@[simp] theorem drawn_mem : (drawn s).mem = s.mem := rfl
@[simp] theorem drawn_freeCount : (drawn s).freeCount = s.freeCount + 1 := rfl
@[simp] theorem drawn_made : (drawn s).made = s.made := rfl
@[simp] theorem drawn_pending : (drawn s).pending = s.pending := rfl

@[simp] theorem produce_now (n : Nat) (b : RecordBody) : (produce n b s).now = s.now := rfl
@[simp] theorem produce_held (n : Nat) (b : RecordBody) : (produce n b s).held = s.held := rfl
@[simp] theorem produce_part (n : Nat) (b : RecordBody) : (produce n b s).part = s.part := rfl
@[simp] theorem produce_safeOut (n : Nat) (b : RecordBody) : (produce n b s).safeOut = s.safeOut := rfl
@[simp] theorem produce_wp (n : Nat) (b : RecordBody) : (produce n b s).wp = s.wp := rfl
@[simp] theorem produce_regs (n : Nat) (b : RecordBody) : (produce n b s).regs = s.regs := rfl
@[simp] theorem produce_site (n : Nat) (b : RecordBody) : (produce n b s).site = s.site := rfl
@[simp] theorem produce_config (n : Nat) (b : RecordBody) : (produce n b s).config = s.config := rfl
@[simp] theorem produce_line (n : Nat) (b : RecordBody) : (produce n b s).line = s.line := rfl
@[simp] theorem produce_press (n : Nat) (b : RecordBody) : (produce n b s).press = s.press := rfl
@[simp] theorem produce_calls (n : Nat) (b : RecordBody) : (produce n b s).calls = s.calls := rfl
@[simp] theorem produce_lamps (n : Nat) (b : RecordBody) : (produce n b s).lamps = s.lamps := rfl
@[simp] theorem produce_crossings (n : Nat) (b : RecordBody) : (produce n b s).crossings = s.crossings := rfl
@[simp] theorem produce_plan (n : Nat) (b : RecordBody) : (produce n b s).plan = s.plan := rfl
@[simp] theorem produce_hold (n : Nat) (b : RecordBody) : (produce n b s).hold = s.hold := rfl
@[simp] theorem produce_proofs (n : Nat) (b : RecordBody) : (produce n b s).proofs = s.proofs := rfl
@[simp] theorem produce_cues (n : Nat) (b : RecordBody) : (produce n b s).cues = s.cues := rfl
@[simp] theorem produce_ann (n : Nat) (b : RecordBody) : (produce n b s).ann = s.ann := rfl
@[simp] theorem produce_orders (n : Nat) (b : RecordBody) : (produce n b s).orders = s.orders := rfl
@[simp] theorem produce_journal (n : Nat) (b : RecordBody) : (produce n b s).journal = s.journal := rfl
@[simp] theorem produce_status (n : Nat) (b : RecordBody) : (produce n b s).status = s.status := rfl
@[simp] theorem produce_street (n : Nat) (b : RecordBody) : (produce n b s).street = s.street := rfl
@[simp] theorem produce_mem (n : Nat) (b : RecordBody) : (produce n b s).mem = s.mem := rfl
@[simp] theorem produce_freeCount (n : Nat) (b : RecordBody) : (produce n b s).freeCount = s.freeCount := rfl
@[simp] theorem produce_made (n : Nat) (b : RecordBody) : (produce n b s).made = s.made ++ [⟨n, s.now, b⟩] := rfl
@[simp] theorem produce_pending (n : Nat) (b : RecordBody) : (produce n b s).pending = s.pending := rfl

@[simp] theorem recordsEnter_now (m : List JournalRecord) : (recordsEnter m s).now = s.now := rfl
@[simp] theorem recordsEnter_held (m : List JournalRecord) : (recordsEnter m s).held = s.held := rfl
@[simp] theorem recordsEnter_part (m : List JournalRecord) : (recordsEnter m s).part = s.part := rfl
@[simp] theorem recordsEnter_safeOut (m : List JournalRecord) : (recordsEnter m s).safeOut = s.safeOut := rfl
@[simp] theorem recordsEnter_wp (m : List JournalRecord) : (recordsEnter m s).wp = s.wp := rfl
@[simp] theorem recordsEnter_regs (m : List JournalRecord) : (recordsEnter m s).regs = s.regs := rfl
@[simp] theorem recordsEnter_site (m : List JournalRecord) : (recordsEnter m s).site = s.site := rfl
@[simp] theorem recordsEnter_config (m : List JournalRecord) : (recordsEnter m s).config = s.config := rfl
@[simp] theorem recordsEnter_line (m : List JournalRecord) : (recordsEnter m s).line = s.line := rfl
@[simp] theorem recordsEnter_press (m : List JournalRecord) : (recordsEnter m s).press = s.press := rfl
@[simp] theorem recordsEnter_calls (m : List JournalRecord) : (recordsEnter m s).calls = s.calls := rfl
@[simp] theorem recordsEnter_lamps (m : List JournalRecord) : (recordsEnter m s).lamps = s.lamps := rfl
@[simp] theorem recordsEnter_crossings (m : List JournalRecord) : (recordsEnter m s).crossings = s.crossings := rfl
@[simp] theorem recordsEnter_plan (m : List JournalRecord) : (recordsEnter m s).plan = s.plan := rfl
@[simp] theorem recordsEnter_hold (m : List JournalRecord) : (recordsEnter m s).hold = s.hold := rfl
@[simp] theorem recordsEnter_proofs (m : List JournalRecord) : (recordsEnter m s).proofs = s.proofs := rfl
@[simp] theorem recordsEnter_cues (m : List JournalRecord) : (recordsEnter m s).cues = s.cues := rfl
@[simp] theorem recordsEnter_ann (m : List JournalRecord) : (recordsEnter m s).ann = s.ann := rfl
@[simp] theorem recordsEnter_orders (m : List JournalRecord) : (recordsEnter m s).orders = s.orders := rfl
@[simp] theorem recordsEnter_journal (m : List JournalRecord) :
    (recordsEnter m s).journal = (freeOrder JournalRecord.precedes s.made.length s.freeCount s.made).foldl
      (JournalWriter.take s.now) s.journal := rfl
@[simp] theorem recordsEnter_status (m : List JournalRecord) : (recordsEnter m s).status = s.status := rfl
@[simp] theorem recordsEnter_street (m : List JournalRecord) : (recordsEnter m s).street = s.street := rfl
@[simp] theorem recordsEnter_mem (m : List JournalRecord) : (recordsEnter m s).mem = s.mem := rfl
@[simp] theorem recordsEnter_freeCount (m : List JournalRecord) :
    (recordsEnter m s).freeCount = s.freeCount + (s.made.length - 1) := rfl
@[simp] theorem recordsEnter_made (m : List JournalRecord) : (recordsEnter m s).made = m := rfl
@[simp] theorem recordsEnter_pending (m : List JournalRecord) : (recordsEnter m s).pending = s.pending := rfl

@[simp] theorem writeWord1_now (h : OrderHead) (n : Nat) : (writeWord1 h n s).now = s.now := rfl
@[simp] theorem writeWord1_held (h : OrderHead) (n : Nat) : (writeWord1 h n s).held = s.held := rfl
@[simp] theorem writeWord1_part (h : OrderHead) (n : Nat) : (writeWord1 h n s).part = s.part := rfl
@[simp] theorem writeWord1_safeOut (h : OrderHead) (n : Nat) : (writeWord1 h n s).safeOut = s.safeOut := rfl
@[simp] theorem writeWord1_wp (h : OrderHead) (n : Nat) : (writeWord1 h n s).wp = s.wp := rfl
@[simp] theorem writeWord1_regs (h : OrderHead) (n : Nat) : (writeWord1 h n s).regs = s.regs := rfl
@[simp] theorem writeWord1_site (h : OrderHead) (n : Nat) : (writeWord1 h n s).site = s.site := rfl
@[simp] theorem writeWord1_config (h : OrderHead) (n : Nat) : (writeWord1 h n s).config = s.config := rfl
@[simp] theorem writeWord1_line (h : OrderHead) (n : Nat) : (writeWord1 h n s).line = s.line := rfl
@[simp] theorem writeWord1_press (h : OrderHead) (n : Nat) : (writeWord1 h n s).press = s.press := rfl
@[simp] theorem writeWord1_calls (h : OrderHead) (n : Nat) : (writeWord1 h n s).calls = s.calls := rfl
@[simp] theorem writeWord1_lamps (h : OrderHead) (n : Nat) : (writeWord1 h n s).lamps = s.lamps := rfl
@[simp] theorem writeWord1_crossings (h : OrderHead) (n : Nat) : (writeWord1 h n s).crossings = s.crossings := rfl
@[simp] theorem writeWord1_plan (h : OrderHead) (n : Nat) : (writeWord1 h n s).plan = s.plan := rfl
@[simp] theorem writeWord1_hold (h : OrderHead) (n : Nat) : (writeWord1 h n s).hold = s.hold := rfl
@[simp] theorem writeWord1_proofs (h : OrderHead) (n : Nat) : (writeWord1 h n s).proofs = s.proofs := rfl
@[simp] theorem writeWord1_cues (h : OrderHead) (n : Nat) : (writeWord1 h n s).cues = s.cues := rfl
@[simp] theorem writeWord1_ann (h : OrderHead) (n : Nat) : (writeWord1 h n s).ann = s.ann := rfl
@[simp] theorem writeWord1_orders (h : OrderHead) (n : Nat) : (writeWord1 h n s).orders = s.orders := rfl
@[simp] theorem writeWord1_journal (h : OrderHead) (n : Nat) : (writeWord1 h n s).journal = s.journal := rfl
@[simp] theorem writeWord1_status (h : OrderHead) (n : Nat) : (writeWord1 h n s).status = s.status := rfl
@[simp] theorem writeWord1_street (h : OrderHead) (n : Nat) : (writeWord1 h n s).street = s.street := rfl
@[simp] theorem writeWord1_mem (h : OrderHead) (n : Nat) :
    (writeWord1 h n s).mem = Memory.writeWord s.mem (h.block + 4) (h.word1 n) := rfl
@[simp] theorem writeWord1_freeCount (h : OrderHead) (n : Nat) : (writeWord1 h n s).freeCount = s.freeCount := rfl
@[simp] theorem writeWord1_made (h : OrderHead) (n : Nat) : (writeWord1 h n s).made = s.made := rfl
@[simp] theorem writeWord1_pending (h : OrderHead) (n : Nat) : (writeWord1 h n s).pending = s.pending := rfl

@[simp] theorem writeWord2_now (h : OrderHead) (r : Result) : (writeWord2 h r s).now = s.now := rfl
@[simp] theorem writeWord2_held (h : OrderHead) (r : Result) : (writeWord2 h r s).held = s.held := rfl
@[simp] theorem writeWord2_part (h : OrderHead) (r : Result) : (writeWord2 h r s).part = s.part := rfl
@[simp] theorem writeWord2_safeOut (h : OrderHead) (r : Result) : (writeWord2 h r s).safeOut = s.safeOut := rfl
@[simp] theorem writeWord2_wp (h : OrderHead) (r : Result) : (writeWord2 h r s).wp = s.wp := rfl
@[simp] theorem writeWord2_regs (h : OrderHead) (r : Result) : (writeWord2 h r s).regs = s.regs := rfl
@[simp] theorem writeWord2_site (h : OrderHead) (r : Result) : (writeWord2 h r s).site = s.site := rfl
@[simp] theorem writeWord2_config (h : OrderHead) (r : Result) : (writeWord2 h r s).config = s.config := rfl
@[simp] theorem writeWord2_line (h : OrderHead) (r : Result) : (writeWord2 h r s).line = s.line := rfl
@[simp] theorem writeWord2_press (h : OrderHead) (r : Result) : (writeWord2 h r s).press = s.press := rfl
@[simp] theorem writeWord2_calls (h : OrderHead) (r : Result) : (writeWord2 h r s).calls = s.calls := rfl
@[simp] theorem writeWord2_lamps (h : OrderHead) (r : Result) : (writeWord2 h r s).lamps = s.lamps := rfl
@[simp] theorem writeWord2_crossings (h : OrderHead) (r : Result) : (writeWord2 h r s).crossings = s.crossings := rfl
@[simp] theorem writeWord2_plan (h : OrderHead) (r : Result) : (writeWord2 h r s).plan = s.plan := rfl
@[simp] theorem writeWord2_hold (h : OrderHead) (r : Result) : (writeWord2 h r s).hold = s.hold := rfl
@[simp] theorem writeWord2_proofs (h : OrderHead) (r : Result) : (writeWord2 h r s).proofs = s.proofs := rfl
@[simp] theorem writeWord2_cues (h : OrderHead) (r : Result) : (writeWord2 h r s).cues = s.cues := rfl
@[simp] theorem writeWord2_ann (h : OrderHead) (r : Result) : (writeWord2 h r s).ann = s.ann := rfl
@[simp] theorem writeWord2_orders (h : OrderHead) (r : Result) : (writeWord2 h r s).orders = s.orders := rfl
@[simp] theorem writeWord2_journal (h : OrderHead) (r : Result) : (writeWord2 h r s).journal = s.journal := rfl
@[simp] theorem writeWord2_status (h : OrderHead) (r : Result) : (writeWord2 h r s).status = s.status := rfl
@[simp] theorem writeWord2_street (h : OrderHead) (r : Result) : (writeWord2 h r s).street = s.street := rfl
@[simp] theorem writeWord2_mem (h : OrderHead) (r : Result) :
    (writeWord2 h r s).mem = Memory.writeWord s.mem (h.block + 8) r.word2 := rfl
@[simp] theorem writeWord2_freeCount (h : OrderHead) (r : Result) : (writeWord2 h r s).freeCount = s.freeCount := rfl
@[simp] theorem writeWord2_made (h : OrderHead) (r : Result) : (writeWord2 h r s).made = s.made := rfl
@[simp] theorem writeWord2_pending (h : OrderHead) (r : Result) : (writeWord2 h r s).pending = s.pending := rfl

@[simp] theorem cueRequest_now (c : Crossing) : (cueRequest c s).now = s.now := rfl
@[simp] theorem cueRequest_held (c : Crossing) : (cueRequest c s).held = s.held := rfl
@[simp] theorem cueRequest_part (c : Crossing) : (cueRequest c s).part = s.part := rfl
@[simp] theorem cueRequest_safeOut (c : Crossing) : (cueRequest c s).safeOut = s.safeOut := rfl
@[simp] theorem cueRequest_wp (c : Crossing) : (cueRequest c s).wp = s.wp := rfl
@[simp] theorem cueRequest_regs (c : Crossing) : (cueRequest c s).regs = s.regs := rfl
@[simp] theorem cueRequest_site (c : Crossing) : (cueRequest c s).site = s.site := rfl
@[simp] theorem cueRequest_config (c : Crossing) : (cueRequest c s).config = s.config := rfl
@[simp] theorem cueRequest_line (c : Crossing) : (cueRequest c s).line = s.line := rfl
@[simp] theorem cueRequest_press (c : Crossing) : (cueRequest c s).press = s.press := rfl
@[simp] theorem cueRequest_calls (c : Crossing) : (cueRequest c s).calls = s.calls := rfl
@[simp] theorem cueRequest_lamps (c : Crossing) : (cueRequest c s).lamps = s.lamps := rfl
@[simp] theorem cueRequest_crossings (c : Crossing) : (cueRequest c s).crossings = s.crossings := rfl
@[simp] theorem cueRequest_plan (c : Crossing) : (cueRequest c s).plan = s.plan := rfl
@[simp] theorem cueRequest_hold (c : Crossing) : (cueRequest c s).hold = s.hold := rfl
@[simp] theorem cueRequest_proofs (c : Crossing) : (cueRequest c s).proofs = s.proofs := rfl
@[simp] theorem cueRequest_cues (c : Crossing) :
    (cueRequest c s).cues = { s.cues with cue := s.cues.cue.set c .awaiting, queue := s.cues.queue ++ [c] } := rfl
@[simp] theorem cueRequest_ann (c : Crossing) : (cueRequest c s).ann = s.ann := rfl
@[simp] theorem cueRequest_orders (c : Crossing) : (cueRequest c s).orders = s.orders := rfl
@[simp] theorem cueRequest_journal (c : Crossing) : (cueRequest c s).journal = s.journal := rfl
@[simp] theorem cueRequest_status (c : Crossing) : (cueRequest c s).status = s.status := rfl
@[simp] theorem cueRequest_street (c : Crossing) : (cueRequest c s).street = s.street := rfl
@[simp] theorem cueRequest_mem (c : Crossing) : (cueRequest c s).mem = s.mem := rfl
@[simp] theorem cueRequest_freeCount (c : Crossing) : (cueRequest c s).freeCount = s.freeCount := rfl
@[simp] theorem cueRequest_made (c : Crossing) : (cueRequest c s).made = s.made := rfl
@[simp] theorem cueRequest_pending (c : Crossing) : (cueRequest c s).pending = s.pending := rfl

@[simp] theorem cueRelease_now (c : Crossing) : (cueRelease c s).now = s.now := rfl
@[simp] theorem cueRelease_held (c : Crossing) : (cueRelease c s).held = s.held := rfl
@[simp] theorem cueRelease_part (c : Crossing) : (cueRelease c s).part = s.part := rfl
@[simp] theorem cueRelease_safeOut (c : Crossing) : (cueRelease c s).safeOut = s.safeOut := rfl
@[simp] theorem cueRelease_wp (c : Crossing) : (cueRelease c s).wp = s.wp := rfl
@[simp] theorem cueRelease_regs (c : Crossing) : (cueRelease c s).regs = s.regs := rfl
@[simp] theorem cueRelease_site (c : Crossing) : (cueRelease c s).site = s.site := rfl
@[simp] theorem cueRelease_config (c : Crossing) : (cueRelease c s).config = s.config := rfl
@[simp] theorem cueRelease_line (c : Crossing) : (cueRelease c s).line = s.line := rfl
@[simp] theorem cueRelease_press (c : Crossing) : (cueRelease c s).press = s.press := rfl
@[simp] theorem cueRelease_calls (c : Crossing) : (cueRelease c s).calls = s.calls := rfl
@[simp] theorem cueRelease_lamps (c : Crossing) : (cueRelease c s).lamps = s.lamps := rfl
@[simp] theorem cueRelease_crossings (c : Crossing) : (cueRelease c s).crossings = s.crossings := rfl
@[simp] theorem cueRelease_plan (c : Crossing) : (cueRelease c s).plan = s.plan := rfl
@[simp] theorem cueRelease_hold (c : Crossing) : (cueRelease c s).hold = s.hold := rfl
@[simp] theorem cueRelease_proofs (c : Crossing) : (cueRelease c s).proofs = s.proofs := rfl
@[simp] theorem cueRelease_cues (c : Crossing) :
    (cueRelease c s).cues = { s.cues with cue := s.cues.cue.set c .none, queue := s.cues.queue.filter (fun d => decide (d ≠ c)) } := rfl
@[simp] theorem cueRelease_ann (c : Crossing) : (cueRelease c s).ann = s.ann := rfl
@[simp] theorem cueRelease_orders (c : Crossing) : (cueRelease c s).orders = s.orders := rfl
@[simp] theorem cueRelease_journal (c : Crossing) : (cueRelease c s).journal = s.journal := rfl
@[simp] theorem cueRelease_status (c : Crossing) : (cueRelease c s).status = s.status := rfl
@[simp] theorem cueRelease_street (c : Crossing) : (cueRelease c s).street = s.street := rfl
@[simp] theorem cueRelease_mem (c : Crossing) : (cueRelease c s).mem = s.mem := rfl
@[simp] theorem cueRelease_freeCount (c : Crossing) : (cueRelease c s).freeCount = s.freeCount := rfl
@[simp] theorem cueRelease_made (c : Crossing) : (cueRelease c s).made = s.made := rfl
@[simp] theorem cueRelease_pending (c : Crossing) : (cueRelease c s).pending = s.pending := rfl

@[simp] theorem withoutHanded_now (h : Handed) : (withoutHanded s h).now = s.now := rfl
@[simp] theorem withoutHanded_held (h : Handed) : (withoutHanded s h).held = s.held := rfl
@[simp] theorem withoutHanded_part (h : Handed) : (withoutHanded s h).part = s.part := rfl
@[simp] theorem withoutHanded_safeOut (h : Handed) : (withoutHanded s h).safeOut = s.safeOut := rfl
@[simp] theorem withoutHanded_wp (h : Handed) : (withoutHanded s h).wp = s.wp := rfl
@[simp] theorem withoutHanded_regs (h : Handed) : (withoutHanded s h).regs = s.regs := rfl
@[simp] theorem withoutHanded_site (h : Handed) : (withoutHanded s h).site = s.site := rfl
@[simp] theorem withoutHanded_config (h : Handed) : (withoutHanded s h).config = s.config := rfl
@[simp] theorem withoutHanded_line (h : Handed) : (withoutHanded s h).line = s.line := rfl
@[simp] theorem withoutHanded_press (h : Handed) : (withoutHanded s h).press = s.press := rfl
@[simp] theorem withoutHanded_calls (h : Handed) : (withoutHanded s h).calls = s.calls := rfl
@[simp] theorem withoutHanded_lamps (h : Handed) : (withoutHanded s h).lamps = s.lamps := rfl
@[simp] theorem withoutHanded_crossings (h : Handed) : (withoutHanded s h).crossings = s.crossings := rfl
@[simp] theorem withoutHanded_plan (h : Handed) : (withoutHanded s h).plan = s.plan := rfl
@[simp] theorem withoutHanded_hold (h : Handed) : (withoutHanded s h).hold = s.hold := rfl
@[simp] theorem withoutHanded_proofs (h : Handed) : (withoutHanded s h).proofs = s.proofs := rfl
@[simp] theorem withoutHanded_cues (h : Handed) : (withoutHanded s h).cues = s.cues := rfl
@[simp] theorem withoutHanded_ann (h : Handed) : (withoutHanded s h).ann = s.ann := rfl
@[simp] theorem withoutHanded_orders (h : Handed) :
    (withoutHanded s h).orders = { s.orders with handed := s.orders.handed.erase h } := rfl
@[simp] theorem withoutHanded_journal (h : Handed) : (withoutHanded s h).journal = s.journal := rfl
@[simp] theorem withoutHanded_status (h : Handed) : (withoutHanded s h).status = s.status := rfl
@[simp] theorem withoutHanded_street (h : Handed) : (withoutHanded s h).street = s.street := rfl
@[simp] theorem withoutHanded_mem (h : Handed) : (withoutHanded s h).mem = s.mem := rfl
@[simp] theorem withoutHanded_freeCount (h : Handed) : (withoutHanded s h).freeCount = s.freeCount := rfl
@[simp] theorem withoutHanded_made (h : Handed) : (withoutHanded s h).made = s.made := rfl
@[simp] theorem withoutHanded_pending (h : Handed) : (withoutHanded s h).pending = s.pending := rfl

end

/-! ### Tables -/

theorem upd_same {α : Type} {n : Nat} (v : Vector α n) (i : Fin n) (f : α → α) : (upd v i f)[i] = f v[i] := by simp [upd]

theorem upd_other {α : Type} {n : Nat} (v : Vector α n) (i j : Fin n) (f : α → α) (h : j ≠ i) : (upd v i f)[j] = v[j] := by
  have : i.val ≠ j.val := fun e => h (Fin.ext e.symm)
  simp [upd, this]

theorem set_same {α : Type} {n : Nat} (v : Vector α n) (i : Fin n) (x : α) : (v.set i x)[i] = x := by simp

theorem set_other {α : Type} {n : Nat} (v : Vector α n) (i j : Fin n) (x : α) (h : j ≠ i) : (v.set i x)[j] = v[j] := by
  have : i.val ≠ j.val := fun e => h (Fin.ext e.symm)
  simp [this]

theorem setAll_get {α : Type} {n : Nat} (is : List (Fin n)) (x : α) :
    ∀ (v : Vector α n) (j : Fin n), (setAll v is x)[j] = if j ∈ is then x else v[j] := by
  induction is with
  | nil => intro v j; simp [setAll]
  | cons i is ih =>
    intro v j
    have e : setAll v (i :: is) x = setAll (v.set i x) is x := rfl
    rw [e, ih]
    by_cases h : j = i
    · subst h; simp
    · rw [set_other _ _ _ _ h]; simp [h]

end Sys2Proof.Machine
end

