-- ==== Sys2Proof/Tests/Slice0.lean ====
section
/-! SUPPORT. Tests: ill-formed commands that the check refuses, one-step runs on small states, and for every obligation with
hypotheses a state and operands that meet them, clause by clause. -/

namespace Sys2Proof.Tests

open Sys2Proof Sys2Proof.Machine

/-! ### Well-formedness: one ill-formed term for each check -/

theorem test_image_silent_past_end : (Instr.configImageReadDone (.silentAt 147)).wellFormed = false := by decide
theorem test_image_short : (Instr.storeReadbackDone (.other [1, 2])).wellFormed = false := by decide
theorem test_anchor_five_words : (Instr.anchorReadDone (.words [1, 2, 3, 4, 5])).wellFormed = false := by decide
theorem test_params_fourteen : (Instr.orderParamsReadDone (.words (List.replicate 14 0))).wellFormed = false := by decide
theorem test_descriptor_one_word : (Instr.descriptorReadDone (.words [1])).wellFormed = false := by decide
theorem test_record_fails_past_end : (Instr.recordWriteDone (.busError 4)).wellFormed = false := by decide
theorem test_close_fails_past_end : (Instr.bufferCloseWriteDone (.busError 3)).wellFormed = false := by decide
theorem test_head_reply_empty : (Instr.headReply []).wellFormed = false := by decide
theorem test_station_reply_empty : (Instr.stationReply []).wellFormed = false := by decide
theorem test_echo_reply_empty : (Instr.echoReply []).wellFormed = false := by decide
theorem test_stray_empty : (Instr.strayLineBytes []).wellFormed = false := by decide
theorem test_well_formed : (Instr.anchorReadDone (.words [1, 2, 3, 4, 5, 6])).wellFormed = true ∧
    (Instr.recordWriteDone (.busError 3)).wellFormed = true ∧ (Instr.nudge 7).wellFormed = true := by decide

/-- No row of the table gives bits, so no word spells a command. -/
theorem test_no_word_spells_a_command : decodeTableWord 32 5 = none ∧ State.reset.withFetchWord 32 5 = State.reset :=
  ⟨rfl, rfl⟩

/-! ### A small town: crossing 3 with its head at 4 and stations 9 and 10 at 5 and 6 -/

def crossing3 : CrossingRec :=
  { headAddr := 4, width := 144, walkTime := 70, extension := 50, minGreen := 20, amber := 40, redBefore := 20,
    redAfter := 20, normalSpeed := 12, accessibleSpeed := 8, home := 1, volumeCap := 10, longPress := 15,
    autoStart := true, neighbours := [], name := [41, 42, 17, 88, 9], info := [⟨0x402001, 3⟩, ⟨0x402010, 2⟩] }

def site : Site :=
  { crossings := (Vector.replicate 8 none).set 2 (some crossing3)
    stations := ((Vector.replicate 32 none).set 8 (some ⟨5, 3, 0⟩)).set 9 (some ⟨6, 3, 1⟩) }

def node : NodeEntry :=
  { lost := false, failRun := 0, goodRun := 0, good := 0, violation := 0, miss := 0, probeCount := 0, ambient := 0,
    speaker := false }

def proof (p : Pair) : ProofRec :=
  { headAddr := 4, commanded := p, proven := none, lamps := 0, state := .checking, allowance := 1, flashCheck := false }

/-- The town in RUNNING, every crossing DARK. -/
def town : State :=
  { State.reset with
    part := .running
    safeOut := true
    site := { SiteTable.reset with
      inForce := some site
      nodeMap := (((Vector.replicate 64 .none).set 4 (.head 2)).set 5 (.station 8)).set 6 (.station 9)
      phraseArea := some (0x400000, 0x500000) }
    line := { Line.reset with
      nodes := (((Vector.replicate 64 none).set 4 (some node)).set 5 (some node)).set 6 (some node) }
    proofs := (Vector.replicate 8 none).set 2 (some (proof Pair.dark)) }

/-- Crossing 3 in a state, its timer at its end. -/
def at3 (st : CrossingState) : State :=
  { town with
    crossings := town.crossings.set 2 { CrossingRecord.reset with state := st, mode := .runFree, timer := some 0 }
    proofs := (Vector.replicate 8 none).set 2 (some (proof st.aspects)) }

def call : Entry := { source := .remote, grade := 2, accessible := false, recalled := false, arrival := 0, expiry := some 0 }

def service : Service :=
  { grade := 2, accessible := true, callsTaken := 1, oldest := 0, absorbed := 0, entries := [call] }

/-- Crossing 3 in a state of a service. -/
def serving (st : CrossingState) : State :=
  { at3 st with crossings := (at3 st).crossings.set 2 { (at3 st).crossings[2] with
      service := some service, walkStart := some 0, countdown := 2 } }

/-- Crossing 3 in VEH_GREEN, its minimum green at its end or elapsed, with calls. -/
def green (elapsed : Bool) (calls : List Entry) : State :=
  { at3 .vehGreen with
    crossings := (at3 .vehGreen).crossings.set 2
      { (at3 .vehGreen).crossings[2] with minGreen := some (0, elapsed), timer := none }
    calls := (Vector.replicate 8 []).set 2 calls }

/-- Crossing 3 in a state with a SET_MODE order pending. -/
def pendingAt (o : PendingOrder) (st : CrossingState) : State :=
  { at3 st with crossings := (at3 st).crossings.set 2 { (at3 st).crossings[2] with order := some o } }

/-- The hold inputs and state. -/
def holding (st : HoldState) (host pin : Bool) (s : State) : State :=
  { s with hold := { s.hold with state := st, hostFlag := host, pinActive := pin, timer := some 0 } }

/-- Station 9 in a test. -/
def testing (t : TestState) (s : State) : State := { s with line := { s.line with tests := s.line.tests.set 8 t } }

/-- The order handed over in slot 1, whose slot is OPEN. -/
def ordered (b : OrderBody) (s : State) : State :=
  { s with orders := { s.orders with
    slots := s.orders.slots.set 0 ⟨1, .occupied ⟨0x1000, 4, 1, true⟩⟩
    handed := [⟨⟨0, 1⟩, b⟩] } }

/-- The Order Unit in an access, the link FOLLOWING. -/
def linked (a : OrderAccess) : State :=
  { town with orders := { town.orders with link := .following, watched := some 0x1000, access := a } }

/-- The Order Unit in an access, the link STOPPED. -/
def unlinked (a : OrderAccess) : State := { town with orders := { town.orders with access := a } }

/-- START has been cleared, and the link stops when its access ends. -/
def stopping (s : State) : State := { s with orders := { s.orders with stopping := true } }

/-- An access that ends under a LINK_RESTART that waits for it. -/
def restarting (a : OrderAccess) : State := { unlinked a with orders := { (unlinked a).orders with restarting := true } }

def plan : Plan :=
  { id := 7, cycle := 40, closedMask := 2, waitLimit := 20, holdLimit := 30, start := Vector.replicate 8 5,
    width := Vector.replicate 8 10 }

/-- The town under a plan, its tick due. -/
def planned (pos : Nat) (waiting : Option (Plan × Ticket)) : State :=
  { town with plan := { town.plan with inForce := some plan, waiting := waiting, position := pos, nextTick := some 0 } }

/-- An exchange under way. -/
def polling (a : NodeAddr) (p : Poll) (s : State) : State :=
  { s with line := { s.line with exchange := some ⟨a, p⟩, scanPos := some (a.val + 1) } }

def context : Context :=
  { suspended := false, priority := 2, origin := .station, hasName := false, descs := [⟨0x402001, 3⟩], send := 0,
    confirmed := 0, buffer := [], readInFlight := true, serial := 0 }

/-- Station 9 speaks; its phrase read is outstanding. -/
def speaking (x : Context) : State :=
  { town with ann := { town.ann with
    contexts := town.ann.contexts.set 8 (some x), reads := [⟨8, 0, 0x402000⟩], nextSerial := 1 } }

def buffer : Buffer :=
  { addr := 0x9000, capacity := 40, last := false, used := 0, weight := 0, flushEnd := some 0, flushExpired := false }

def gapRecord : JournalRecord := ⟨3, 0, .escalated .remote⟩

/-- The Journal Writer in an access. -/
def writing (a : JournalAccess) : State :=
  { linked .idle with journal := { town.journal with
    state := .writing, access := a, current := some buffer, fifo := [gapRecord], listAddr := some 0x2000 } }

/-- The image of the site, words 0 to 146. -/
def image : List Word := imageOf site


/-! ### Hypotheses that are met: the queue, reset, LOADING and the registers -/

theorem witness_FrontCommandRuns : ({ town with pending := [.nudge 0, .cueGrant] } : State).pending = [.nudge 0, .cueGrant] := rfl

theorem witness_EmptyQueuePassesAMillisecond :
    (town.pending = [] ∧ town.held = false) ∧
    (({ town with held := true } : State).pending = [] ∧ ({ town with held := true } : State).held = true) := by decide

theorem witness_HeldInResetStopsAll :
    ({ town with held := true } : State).held = true ∧ (∀ low, Instr.nudge 0 ≠ .powerOnOrExternalReset low) ∧
    Instr.nudge 0 ≠ .heldInReset := by decide

/-- LOADING with START written, and an anchor at a boundary of each clause. -/
def loadingAt (a : Word) (start : Bool) : State :=
  { State.reset with regs := { anchor := a, start := start, enables := 0, attention := 0 } }

theorem witness_LoadingEndsWithoutASite_start :
    ((loadingAt 0xFFFFE0#32 true).held = false ∧ (loadingAt 0xFFFFE0#32 true).part = .loading ∧
      (loadingAt 0xFFFFE0#32 true).regs.start = true ∧ (loadingAt 0xFFFFE0#32 true).orders.link = .stopped ∧
      (loadingAt 0xFFFFE0#32 true).orders.access = .idle ∧
      (0xFFFFE0#32 : Word).toNat % 16 = 0 ∧ (0xFFFFE0#32 : Word).toNat + 24 ≤ 0x1000000) ∧
    (0x1000000 < (0xFFFFF0#32 : Word).toNat + 24) ∧ ((0x8#32 : Word).toNat % 16 ≠ 0) := by decide

theorem witness_LoadingEndsWithoutASite_ended :
    State.reset.held = false ∧ State.reset.part = .loading ∧ State.reset.regs.start = false ∧
    List.getD [0#32] 0 0 ≠ 0x47574B31#32 ∧
    (List.getD [0x47574B31#32, 143#32] 0 0 = 0x47574B31#32 ∧ (List.getD [0x47574B31#32, 143#32] 1 0).toNat ≠ 144) := by decide

theorem witness_LoadingEndsWithoutASite_checksum :
    (image.set 146 0).getD 0 0 = 0x47574B31#32 ∧
    checksum ((image.set 146 0).getD 1 0) (slice (image.set 146 0) 2 144) ≠ bitsAt ((image.set 146 0).getD 146 0) 0 16 := by
  decide +kernel

theorem witness_LoadingEndsWithoutASite_check :
    (validate (slice (image.set 2 0xFFFFFFFF#32) 2 144) none false).isSome = true := by
  decide +kernel

theorem witness_ValidImageComesInForce :
    State.reset.held = false ∧ State.reset.part = .loading ∧ (∀ c : Crossing, State.reset.crossings[c].state = .dark) ∧
    image.getD 0 0 = 0x47574B31#32 ∧ (image.getD 1 0).toNat = 144 ∧
    checksum (image.getD 1 0) (slice image 2 144) = bitsAt (image.getD 146 0) 0 16 ∧
    validate (slice image 2 144) none false = none := by decide +kernel

/-- The site of that image has a configured crossing whose auto-start flag is set, and crossings not configured. -/
theorem witness_ValidImageComesInForce_crossings :
    (siteOf (slice image 2 144)).crossings[(2 : Crossing)].map CrossingRec.autoStart = some true ∧
    (siteOf (slice image 2 144)).crossings[(0 : Crossing)] = none := by decide +kernel

theorem witness_RegistersReadAndWritten :
    town.held = false ∧ (0x1F02#32 : Word).getLsbD 1 = true ∧
    ((0x1F00#32 : Word).getLsbD 1 = false ∧ (0x1F00#32 : Word).getLsbD 0 = town.regs.start) ∧
    ((1#32 : Word).getLsbD 1 = false ∧ (1#32 : Word).getLsbD 0 = true ∧ town.regs.start = false) ∧
    ((0#32 : Word).getLsbD 1 = false ∧ (0#32 : Word).getLsbD 0 = false ∧ (loadingAt 0 true).regs.start = true ∧
      (loadingAt 0 true).held = false) := by decide

theorem witness_OnlyWritesClearAttention :
    exec (.strayLineBytes [1]) town = .next town ∧ (∀ low, Instr.strayLineBytes [1] ≠ .powerOnOrExternalReset low) ∧
    Instr.strayLineBytes [1] ≠ .heldInReset ∧ (∀ w, Instr.strayLineBytes [1] ≠ .attentionClear w) ∧
    (∀ r w, Instr.strayLineBytes [1] ≠ .registerWrite r w) :=
  ⟨rfl, fun _ => nofun, nofun, fun _ => nofun, fun _ _ => nofun⟩

/-! ### The link -/

/-- The town with an anchor. -/
def anchored (a : Word) (start : Bool) (s : State) : State := { s with regs := { s.regs with anchor := a, start := start } }

theorem witness_StartSetAndCleared :
    ((anchored 0xFFFFE0#32 false town).held = false ∧ (anchored 0xFFFFE0#32 false town).regs.start = false ∧
      (anchored 0xFFFFE0#32 false town).part ≠ .loading ∧ (anchored 0xFFFFE0#32 false town).orders.link = .stopped ∧
      (anchored 0xFFFFE0#32 false town).orders.access = .idle ∧
      (anchored 0xFFFFE0#32 false town).regs.anchor.toNat % 16 = 0 ∧
      (anchored 0xFFFFE0#32 false town).regs.anchor.toNat + 24 ≤ 0x1000000) ∧
    0x1000000 < (anchored 0xFFFFF0#32 false town).regs.anchor.toNat + 24 ∧
    (State.reset.held = false ∧ State.reset.regs.start = false ∧ State.reset.part = .loading) := by decide

/-- START set in the anchor read of a LINK_RESTART with START clear. -/
theorem witness_StartSetAndCleared_busy :
    (unlinked (.anchor 0x100 true false)).held = false ∧ (unlinked (.anchor 0x100 true false)).regs.start = false ∧
    (unlinked (.anchor 0x100 true false)).part ≠ .loading ∧ (unlinked (.anchor 0x100 true false)).orders.access ≠ .idle := by
  decide

theorem witness_StartSetAndCleared_clear :
    ((anchored 0 true (linked .idle)).held = false ∧ (anchored 0 true (linked .idle)).regs.start = true ∧
      (anchored 0 true (linked .idle)).part ≠ .loading ∧ (anchored 0 true (linked .idle)).orders.link = .following ∧
      (anchored 0 true (linked .idle)).orders.access = .idle ∧ (anchored 0 true (linked .idle)).journal.access = .idle ∧
      (anchored 0 true (linked .idle)).journal.state ≠ .faulted) ∧
    ((anchored 0 true (linked .link)).orders.link = .following ∧ (anchored 0 true (linked .link)).orders.access ≠ .idle) ∧
    ({ linked .idle with orders := { (linked .idle).orders with link := .halted } } : State).orders.link = .halted := by decide

theorem witness_StartSetAndCleared_stopped :
    ((anchored 0 true (unlinked (.anchor 0x100 false true))).orders.link = .stopped ∧
      (anchored 0 true (unlinked (.anchor 0x100 false true))).orders.access = .anchor 0x100 false true ∧
      (anchored 0 true (unlinked (.anchor 0x100 false true))).regs.start = true) ∧
    ((anchored 0 true (unlinked .idle)).orders.link = .stopped ∧
      ∀ a b d, (anchored 0 true (unlinked .idle)).orders.access ≠ .anchor a b d) :=
  ⟨by decide, rfl, fun _ _ _ => nofun⟩

theorem witness_LinkRestartAbandons :
    (State.reset.held = false ∧ State.reset.part = .loading) ∧
    ((linked .idle).held = false ∧ (linked .idle).part ≠ .loading ∧ (linked .idle).orders.access = .idle ∧
      (linked .idle).regs.anchor.toNat % 16 = 0 ∧ (linked .idle).regs.anchor.toNat + 24 ≤ 0x1000000) ∧
    (0x1000000 < (anchored 0xFFFFF0#32 true (linked .idle)).regs.anchor.toNat + 24) ∧
    (∃ a b d, (unlinked (.anchor 0x100 false true)).orders.access = .anchor a b d) ∧
    ((linked .link).orders.access ≠ .idle ∧ (∀ a b d, (linked .link).orders.access ≠ .anchor a b d)) :=
  ⟨by decide, by decide, by decide, ⟨_, _, _, rfl⟩, by decide, fun _ _ _ => nofun⟩

/-- Each access that a LINK_RESTART can wait for; an order whose kind is refused at taking, and one that is handed over. -/
theorem witness_LinkRestartAbandons_ends :
    ((restarting .link).held = false ∧ (restarting .link).orders.restarting = true ∧ (restarting .link).orders.link = .stopped ∧
      (restarting .link).orders.access = .link) ∧
    (restarting (.header 0x1000)).orders.access = .header 0x1000 ∧
    (restarting (.params ⟨0x1000, 4, 1, true⟩)).orders.access = .params ⟨0x1000, 4, 1, true⟩ ∧
    ((restarting (.taken ⟨0x1000, 4, 1, true⟩ [0x00000203#32])).orders.access = .taken ⟨0x1000, 4, 1, true⟩ [0x00000203#32] ∧
      (restarting (.taken ⟨0x1000, 4, 1, true⟩ [0x00000203#32])).orders.slots[(0 : SlotIx)].state = .free ∧
      takingChecks (restarting (.taken ⟨0x1000, 4, 1, true⟩ [0x00000203#32])) ⟨0x1000, 4, 1, true⟩ [0x00000203#32] =
        .ok (.setMode 2 .runFree) ∧
      takingChecks (restarting (.taken ⟨0x1000, 10, 1, true⟩ [0x00000203#32])) ⟨0x1000, 10, 1, true⟩ [0x00000203#32] =
        .error .badKind) ∧
    (restarting (.detail 3 ⟨0x1000, 4, 1, true⟩ (Result.done 2))).orders.access =
      .detail 3 ⟨0x1000, 4, 1, true⟩ (Result.done 2) ∧
    (restarting (.state 3 ⟨0x1000, 4, 1, true⟩ (Result.done 2))).orders.access =
      .state 3 ⟨0x1000, 4, 1, true⟩ (Result.done 2) :=
  ⟨by decide, rfl, rfl, ⟨rfl, by decide, rfl, rfl⟩, rfl, rfl⟩

/-- Six anchor words; the first block is word 1. -/
def anchorWords (sig first : Word) : List Word := [sig, first, 0x2000#32, 0xFFFDC4#32, 0x400000#32, 0x500000#32]

theorem witness_AnchorReadEnds_fails :
    (unlinked (.anchor 0x100 false true)).held = false ∧
    (unlinked (.anchor 0x100 false true)).orders.access = .anchor 0x100 false true ∧
    (∀ ws, WordsEnd.busError = .words ws → ws.getD 0 0 ≠ 0x0000C3A5#32) ∧
    (anchorWords 0#32 0#32).getD 0 0 ≠ 0x0000C3A5#32 ∧
    ((unlinked (.anchor 0x100 false true)).orders.saved = none ∧
      ((anchorWords 0xC3A5#32 0#32).getD 1 0).toNat = 0 ∧ ((anchorWords 0xC3A5#32 0x1008#32).getD 1 0).toNat % 16 ≠ 0 ∧
      0x1000000 < ((anchorWords 0xC3A5#32 0x1000000#32).getD 1 0).toNat + 16) ∧
    ((unlinked (.anchor 0x100 true false)).orders.access = .anchor 0x100 true false ∧
      (unlinked (.anchor 0x100 true false)).regs.start = false ∧
      (anchored 0 true (unlinked (.anchor 0x100 true false))).regs.start = true) :=
  ⟨rfl, rfl, fun _ => nofun, by decide, by decide, by decide⟩

theorem witness_AnchorReadEnds_succeeds :
    ((anchored 0 true (unlinked (.anchor 0x100 false true))).orders.access = .anchor 0x100 false true ∧
      (anchored 0 true (unlinked (.anchor 0x100 false true))).orders.link = .stopped ∧
      (anchored 0 true (unlinked (.anchor 0x100 false true))).orders.stopping = false ∧
      (anchorWords 0xC3A5#32 0xFFFFF0#32).getD 0 0 = 0x0000C3A5#32 ∧
      ((anchorWords 0xC3A5#32 0xFFFFF0#32).getD 1 0).toNat ≠ 0 ∧ ((anchorWords 0xC3A5#32 0xFFFFF0#32).getD 1 0).toNat % 16 = 0 ∧
      ((anchorWords 0xC3A5#32 0xFFFFF0#32).getD 1 0).toNat + 16 ≤ 0x1000000) ∧
    ((unlinked (.anchor 0x100 true false)).regs.start = false ∧
      (anchored 0 true (unlinked (.anchor 0x100 true false))).regs.start = true) ∧
    0x1000000 < ((List.set (anchorWords 0xC3A5#32 0x1000#32) 3 0xFFFDC8#32).getD 3 0).toNat + 572 := by decide

/-- The anchor is read for the first time, with a journal that has kept a buffer or not. -/
def joining (b : Option Buffer) (list : Option Nat) : State :=
  { unlinked (.anchor 0x100 false true) with journal := { town.journal with current := b, listAddr := list } }

/-- A first list address, at the end of the window and past it; a list address that is kept; a buffer kept; the table past the end
of the window, at an address that is no multiple of 4, and a write of it in progress. -/
theorem witness_JoiningBeginsJournalAndTable :
    ((joining none none).held = false ∧ (joining none none).orders.access = .anchor 0x100 false true ∧
      (joining none none).orders.link = .stopped ∧ (joining none none).orders.stopping = false ∧
      (joining none none).orders.saved = none ∧ (anchorWords 0xC3A5#32 0xFFFFF0#32).getD 0 0 = 0x0000C3A5#32 ∧
      ((anchorWords 0xC3A5#32 0xFFFFF0#32).getD 1 0).toNat + 16 ≤ 0x1000000) ∧
    ((false || (joining none none).journal.listAddr.isNone) = true ∧
      (false || (joining none (some 0x3000)).journal.listAddr.isNone) = false) ∧
    ((0xFFFC00 : Nat) % 16 = 0 ∧ (0xFFFC00 : Nat) + 1024 ≤ 0x1000000 ∧ ¬((0xFFFC10 : Nat) + 1024 ≤ 0x1000000)) ∧
    ((joining none none).journal.state = .idle ∧ (joining none none).journal.access = .idle ∧
      (joining none none).journal.current = none) ∧
    ((joining (some ⟨0x9000, 40, false, 0, 0, none, false⟩) (some 0x3000)).journal.current =
        some ⟨0x9000, 40, false, 0, 0, none, false⟩) ∧
    ((0xFFFDC4 : Nat) % 4 = 0 ∧ (0xFFFDC4 : Nat) + 572 ≤ 0x1000000 ∧ ¬((0xFFFDC8 : Nat) + 572 ≤ 0x1000000)) ∧
    ((joining none none).status.stopped = false ∧ (joining none none).status.write = none ∧
      ({ town.status with write := some (0x8000, 3) } : StatusWriter).write ≠ none) := by decide

/-- All 16 slots occupied. -/
def full (s : State) : State :=
  { s with orders := { s.orders with slots := Vector.replicate 16 ⟨1, .occupied ⟨0x1000, 4, 1, true⟩⟩ } }

/-- A HELD result waits in slot 6. -/
def resultHeld (s : State) : State :=
  { s with orders := { s.orders with
    slots := s.orders.slots.set 5 ⟨1, .finished ⟨0x1000, 4, 1, true⟩ (Result.done 2)⟩, heldQueue := [5] } }

/-- The journal STALLED, its descriptor read under way or not, its re-read due. -/
def stalled (a : JournalAccess) (s : State) : State :=
  { s with journal := { s.journal with state := .stalled, access := a, nextReread := some 0 } }

theorem witness_LooksAtTheChain :
    (town.held = false ∧ town.orders.stopping = false ∧ town.orders.link ≠ .following) ∧
    ((linked .idle).orders.link = .following ∧ (linked .idle).orders.access = .idle ∧ (linked .idle).orders.heldQueue = [] ∧
      (linked .idle).orders.stopping = false ∧ (∃ i : SlotIx, (linked .idle).orders.slots[i].state = .free)) ∧
    (∀ i : SlotIx, (full (linked .idle)).orders.slots[i].state ≠ .free) ∧
    ((resultHeld (linked .idle)).orders.heldQueue = 5 :: [] ∧ (resultHeld (linked .idle)).orders.slots[(5 : SlotIx)].state =
        .finished ⟨0x1000, 4, 1, true⟩ (Result.done 2) ∧
      (resultHeld (linked .idle)).orders.link = .following ∧ (resultHeld (linked .idle)).orders.access = .idle) ∧
    ((linked .link).orders.link = .following ∧ (linked .link).orders.access ≠ .idle) ∧
    ((stalled .idle (linked .idle)).journal.state = .stalled ∧ (stalled .idle (linked .idle)).journal.access = .idle ∧
      (stalled .descriptor (linked .idle)).journal.access ≠ .idle) ∧
    2147483648 ≤ (town.now - town.orders.nextLook).toNat ∧
    (({ town with now := 100 } : State).now - ({ town with now := 100 } : State).orders.nextLook).toNat < 2147483648 := by
  decide

/-- The look period due: in STOPPED, under an access, with nothing held, with every slot occupied, and with a result held. -/
theorem witness_LooksAtTheChain_due :
    ({ town with now := 100 } : State).orders.link ≠ .following ∧
    (∀ s ∈ [linked .link, linked .idle, full (linked .idle), resultHeld (linked .idle)],
      ({ s with now := 100 } : State).held = false ∧ s.orders.link = .following ∧
      ((100 : Time) - s.orders.nextLook).toNat < 2147483648) ∧
    (full (linked .idle)).orders.heldQueue = [] ∧ (resultHeld (linked .idle)).orders.stopping = false := by decide

theorem witness_LinkFollowed :
    ((linked .link).held = false ∧ (linked .link).orders.restarting = false ∧ (linked .link).orders.access = .link ∧
      (linked .link).orders.link = .following ∧ (linked .link).orders.stopping = false ∧
      (linked .link).orders.lookDue = false ∧ (linked .link).orders.heldQueue = []) ∧
    ((0xFFFFF0#32 : Word) ≠ 0 ∧ (0xFFFFF0#32 : Word).toNat % 16 = 0 ∧ (0xFFFFF0#32 : Word).toNat + 16 ≤ 0x1000000) ∧
    ((0x1000000#32 : Word) ≠ 0 ∧ 0x1000000 < (0x1000000#32 : Word).toNat + 16) ∧ (0x1008#32 : Word).toNat % 16 ≠ 0 ∧
    ((linked (.header 0x1000)).orders.access = .header 0x1000 ∧ byteAt 0x000E0401#32 0 = 1 ∧ 13 < byteAt 0x000E0401#32 2 ∧
      byteAt 0x00000401#32 2 = 0 ∧ byteAt 0x000D0401#32 2 = 13 ∧ byteAt 0x00010401#32 2 = 1 ∧
      0x1000 + 12 + 4 * 13 ≤ 0x1000000 ∧ byteAt 0x00010402#32 0 ≠ 1) ∧
    ((linked (.params ⟨0x1000, 4, 1, true⟩)).orders.access = .params ⟨0x1000, 4, 1, true⟩ ∧
      [0x0000_0203#32].length = (⟨0x1000, 4, 1, true⟩ : OrderHead).len) := by decide

/-- Where START has been cleared in the look; and set again since. -/
theorem witness_LinkFollowed_stopping :
    ((stopping (linked .link)).held = false ∧ (stopping (linked .link)).orders.restarting = false ∧
      (stopping (linked .link)).orders.access = .link ∧ (stopping (linked .link)).orders.link = .following ∧
      (stopping (linked .link)).orders.stopping = true ∧ (stopping (linked .link)).regs.start = false) ∧
    (anchored 0 true (stopping (linked .link))).regs.start = true ∧
    (stopping (linked (.header 0x1000))).orders.access = .header 0x1000 := by decide

/-- A SET_MODE order of crossing 3, about to be taken. -/
def taking3 : State := linked (.taken ⟨0x1000, 4, 1, true⟩ [0x00000203#32])

theorem witness_OrderTakenAndHandedOver :
    taking3.held = false ∧ taking3.orders.access = .taken ⟨0x1000, 4, 1, true⟩ [0x00000203#32] ∧
    taking3.orders.restarting = false ∧ taking3.orders.stopping = false ∧
    taking3.orders.slots[(0 : SlotIx)].state = .free ∧
    (∀ j : SlotIx, j < 0 → taking3.orders.slots[j].state ≠ .free) ∧
    takingChecks taking3 ⟨0x1000, 4, 1, true⟩ [0x00000203#32] = .ok (.setMode 2 .runFree) ∧
    takingChecks taking3 ⟨0x1000, 10, 1, true⟩ [0x00000203#32] = .error .badKind :=
  ⟨rfl, rfl, rfl, rfl, by decide, by decide, rfl, rfl⟩

theorem witness_OrderTakenAndHandedOver_stopping :
    (stopping taking3).orders.stopping = true ∧ (stopping taking3).orders.link = .following ∧
    (stopping taking3).orders.restarting = false ∧ (stopping taking3).orders.slots[(0 : SlotIx)].state = .free := by decide

theorem witness_OrderChecksAndEnds :
    (OrderKind.ofCode 9 = some .corridorHold ∧ 9 < 10 ∧ (2 ≠ OrderKind.corridorHold.paramLength) ∧
      orderBody town .corridorHold [2#32] = none ∧ orderBody town .corridorHold [1#32] = some (.corridorHold true) ∧
      town.part ≠ .lockout) ∧
    (∀ h, (⟨0x1000, 4, 1, true⟩ : OrderHead) = h →
      (ordered .storeSite town).orders.slots[(0 : SlotIx)] = ⟨1, .occupied h⟩) ∧
    (∀ h, town.orders.slots[(15 : SlotIx)] ≠ ⟨1, .occupied h⟩) := by
  refine ⟨by decide, ?_, ?_⟩
  · rintro h rfl
    rfl
  · intro h e
    cases e

/-- Kind by kind, first words that are in range and first words that are not. -/
theorem witness_OrderChecksAndEnds_ranges :
    (((0xFFFDC0#32 : Word).toNat % 4 = 0 ∧ (0xFFFDC0#32 : Word).toNat + 576 ≤ 0x1000000) ∧
      0x1000000 < (0xFFFDC4#32 : Word).toNat + 576 ∧ (0x3002#32 : Word).toNat % 4 ≠ 0) ∧
    ((40 ≤ plan.cycle ∧ plan.cycle ≤ 240) ∧ plan.closedMask ≤ 3 ∧ 20 ≤ plan.waitLimit ∧ 30 ≤ plan.holdLimit ∧
      ∀ c : Crossing, plan.start[c] < plan.cycle ∧ plan.width[c] ≤ plan.cycle) ∧
    (byteAt 0x00000303#32 0 = (2 : Crossing).val + 1 ∧ configured town 2 = true ∧ byteAt 0x00000303#32 1 = 3 ∧
      3 < byteAt 0x00000403#32 1) ∧
    (byteAt 0x00010503#32 2 = 1 ∧ byteAt 0x00010503#32 1 = 5 ∧ 1 < byteAt 0x00020503#32 2 ∧ byteAt 0x00000403#32 1 ≠ 5 ∧
      byteAt 0x00000403#32 1 ≠ 2) ∧
    (byteAt 0x00000103#32 1 = 1 ∧ 1 < byteAt 0x00000203#32 1) ∧
    (∀ c : Crossing, byteAt 0x00000001#32 0 = c.val + 1 → configured town c = false) ∧
    ((byteAt 0x04030900#32 2 = 3 ∧ byteAt 0x04030900#32 3 = 4) ∧ byteAt 0x04030900#32 0 = 0 ∧
      byteAt 0x04030900#32 1 = (8 : Station).val + 1 ∧ (stationRec? town 8).isSome = true) ∧
    ((byteAt 0x01020301#32 2 = 2 ∧ byteAt 0x01020301#32 3 = 1) ∧ byteAt 0x01020301#32 0 = 1 ∧
      byteAt 0x01020301#32 1 = (2 : Crossing).val + 1) ∧
    (4 < byteAt 0x05020301#32 3 ∧ 1 < byteAt 0x01020302#32 0) ∧
    (∀ st : Station, byteAt 0x01020100#32 1 = st.val + 1 → (stationRec? town st).isSome = false) ∧
    (byteAt 0x00000109#32 0 = (8 : Station).val + 1 ∧ byteAt 0x00000109#32 1 = 1 ∧ byteAt 0x00000009#32 1 = 0 ∧
      1 < byteAt 0x00000209#32 1) ∧
    (byteAt 0#32 0 = 0 ∧ byteAt 1#32 0 = 1 ∧ 1 < byteAt 2#32 0) := by decide

theorem witness_ResultWritten :
    ((linked (.detail 3 ⟨0x1000, 4, 1, true⟩ (Result.done 2))).held = false ∧
      (linked (.detail 3 ⟨0x1000, 4, 1, true⟩ (Result.done 2))).orders.restarting = false ∧
      (linked (.detail 3 ⟨0x1000, 4, 1, true⟩ (Result.done 2))).orders.access = .detail 3 ⟨0x1000, 4, 1, true⟩ (Result.done 2)) ∧
    (linked (.state 15 ⟨0x1000, 4, 1, false⟩ (Result.refused .busy))).orders.access =
      .state 15 ⟨0x1000, 4, 1, false⟩ (Result.refused .busy) := by decide

theorem witness_ResultWritten_stopping :
    (stopping (linked (.state 3 ⟨0x1000, 4, 1, true⟩ (Result.done 2)))).orders.stopping = true ∧
    (stopping (linked (.state 3 ⟨0x1000, 4, 1, true⟩ (Result.done 2)))).orders.link = .following ∧
    (stopping (linked (.state 3 ⟨0x1000, 4, 1, true⟩ (Result.done 2)))).orders.restarting = false ∧
    (stopping (linked (.state 3 ⟨0x1000, 4, 1, true⟩ (Result.done 2)))).orders.access =
      .state 3 ⟨0x1000, 4, 1, true⟩ (Result.done 2) := by decide

/-! ### Orders at their owners -/

/-- The ticket of the order handed over in slot 1. -/
def first : Ticket := ⟨0, 1⟩

/-- A load with some words of the staging copy, taken from the image. -/
def loaded (n : Nat) (s : State) : State :=
  { s with site := { s.site with load := some ⟨first, 0x3000, (slice image 2 144).take n⟩ } }

theorem witness_LoadSite_taken :
    ((ordered (.loadSite 0x3000) town).held = false ∧
      handedOf 0 .loadSite (ordered (.loadSite 0x3000) town) = some ⟨first, .loadSite 0x3000⟩ ∧
      (∀ c : Crossing, (ordered (.loadSite 0x3000) town).crossings[c].state = .dark) ∧
      (ordered (.loadSite 0x3000) town).config.store = none ∧ (ordered (.loadSite 0x3000) town).site.load = none) ∧
    (handedOf 0 .loadSite (ordered (.loadSite 0x3000) (at3 .vehGreen)) = some ⟨first, .loadSite 0x3000⟩ ∧
      (∃ c : Crossing, (ordered (.loadSite 0x3000) (at3 .vehGreen)).crossings[c].state ≠ .dark)) := by decide

theorem witness_LoadSite_word :
    (loaded 0 town).held = false ∧ (loaded 0 town).site.load = some ⟨first, 0x3000, []⟩ ∧ ([] : List Word).length + 1 < 144 ∧
    144 ≤ ((slice image 2 144).take 143).length + 1 ∧
    validate ((slice image 2 144).take 143 ++ [0]) (some (0x400000, 0x500000)) true = none ∧
    (∀ c : Crossing, (loaded 143 town).crossings[c].state = .dark) ∧
    (validate (List.replicate 143 0xFFFFFFFF#32 ++ [0]) (some (0x400000, 0x500000)) true).isSome = true := by
  decide +kernel

/-- The last word comes while crossing 3 is not DARK; and a body that fails its first check at crossing 1. -/
theorem witness_LoadSite_last :
    ((loaded 143 (at3 .maint)).site.load = some ⟨first, 0x3000, (slice image 2 144).take 143⟩ ∧
      ∃ c : Crossing, (loaded 143 (at3 .maint)).crossings[c].state ≠ .dark) ∧
    validate (List.replicate 144 0xFFFFFFFF#32) none true = some (1, 1) := by
  decide +kernel

/-- A store after some of its 148 writes, and the word of the first that WP low made the memory refuse. -/
def storing (n : Nat) (refused : Option Nat) (s : State) : State :=
  { s with config := { s.config with store := some ⟨first, image, n, refused⟩, stored := image } }

theorem witness_StoreSite_taken :
    ((ordered .storeSite town).held = false ∧ handedOf 0 .storeSite (ordered .storeSite town) = some ⟨first, .storeSite⟩ ∧
      (ordered .storeSite town).config.store = none ∧ (ordered .storeSite town).site.load = none ∧
      (ordered .storeSite town).site.inForce = some site) ∧
    (handedOf 0 .storeSite (ordered .storeSite (loaded 0 town)) = some ⟨first, .storeSite⟩ ∧
      (ordered .storeSite (loaded 0 town)).site.load ≠ none) ∧
    (handedOf 0 .storeSite (ordered .storeSite State.reset) = some ⟨first, .storeSite⟩ ∧
      (ordered .storeSite State.reset).site.inForce = none) := by decide

theorem witness_StoreSite_written :
    ((storing 147 none town).held = false ∧ (storing 147 none town).config.store = some ⟨first, image, 147, none⟩ ∧ 147 < 148) ∧
    ((storing 147 (some 3) town).config.store = some ⟨first, image, 147, some 3⟩) ∧
    ((storing 148 none town).config.store = some ⟨first, image, 148, none⟩ ∧
      (storing 148 (some 3) town).config.store = some ⟨first, image, 148, some 3⟩) ∧
    (∀ j, j < 147 → image.getD j 0 = (storing 148 none town).config.stored.getD j 0) ∧
    image.getD 0 0 ≠ (List.replicate 147 0#32).getD 0 0 :=
  ⟨⟨rfl, rfl, by decide⟩, rfl, ⟨rfl, rfl⟩, fun _ _ => rfl, by decide⟩

/-- Read back: what was stored, or other words, of which the first differs, or the last; and a memory silent at its last word. -/
theorem witness_StoreSite_readback :
    ((storing 148 none town).config.store = some ⟨first, image, 148, none⟩ ∧ 148 ≤ 148) ∧
    (MemoryAnswer.other image = .other image ∧ (∀ j, j < 147 → image.getD j 0 = image.getD j 0)) ∧
    (image.getD 0 0 ≠ (image.set 0 0).getD 0 0 ∧ image.getD 146 0 ≠ (image.set 146 0).getD 146 0 ∧
      ∀ m : Fin 146, image.getD m.val 0 = (image.set 146 0).getD m.val 0) ∧
    (146 ≤ 146 ∧ 146 < 147) :=
  ⟨⟨rfl, by decide⟩, ⟨rfl, fun _ _ => rfl⟩, by decide +kernel, by decide⟩

theorem witness_LoadPlanTaken :
    ((ordered (.loadPlan plan) town).held = false ∧
      handedOf 0 .loadPlan (ordered (.loadPlan plan) town) = some ⟨first, .loadPlan plan⟩ ∧
      (ordered (.loadPlan plan) town).plan.inForce = none ∧ JournalRoom (ordered (.loadPlan plan) town) 9) ∧
    (handedOf 0 .loadPlan (ordered (.loadPlan plan) (planned 0 none)) = some ⟨first, .loadPlan plan⟩ ∧
      (ordered (.loadPlan plan) (planned 0 none)).plan.inForce = some plan ∧
      (ordered (.loadPlan plan) (planned 0 none)).plan.waiting = none) ∧
    (ordered (.loadPlan plan) (planned 0 (some (plan, ⟨1, 1⟩)))).plan.waiting = some (plan, ⟨1, 1⟩) ∧
    windowOpenAt 40 5 10 0 = false :=
  ⟨⟨rfl, by decide, rfl, rfl, by decide⟩, by decide, rfl, by decide⟩

/-- Both stations of crossing 3 are LOST. -/
def allGone (s : State) : State :=
  { s with line := { s.line with
    nodes := (s.line.nodes.set 5 (some { node with lost := true })).set 6 (some { node with lost := true }) } }

/-- The head of crossing 3 is LOST. -/
def headGone (s : State) : State :=
  { s with line := { s.line with nodes := s.line.nodes.set 4 (some { node with lost := true }) } }

theorem witness_SetModeStarts :
    ((ordered (.setMode 2 .runCoord) town).held = false ∧
      handedOf 0 .setMode (ordered (.setMode 2 .runCoord) town) = some ⟨first, .setMode 2 .runCoord⟩ ∧
      (ordered (.setMode 2 .runCoord) town).site.load = none ∧ headLost (ordered (.setMode 2 .runCoord) town) 2 = false ∧
      (ordered (.setMode 2 .runCoord) town).crossings[(2 : Crossing)].state = .dark) ∧
    (handedOf 0 .setMode (ordered (.setMode 2 .runFree) (at3 .flash)) = some ⟨first, .setMode 2 .runFree⟩ ∧
      (ordered (.setMode 2 .runFree) (at3 .flash)).crossings[(2 : Crossing)].state = .flash) ∧
    headLost (ordered (.setMode 2 .runFree) (headGone town)) 2 = true ∧
    (ordered (.setMode 2 .dark) (loaded 0 town)).site.load ≠ none := by decide

/-- Every station of crossing 3 is LOST, so that recall begins with its entry to STARTUP; and one is not. -/
theorem witness_SetModeStarts_recall :
    (∀ st ∈ stationsOf (ordered (.setMode 2 .runFree) (allGone town)) 2,
      stationLost (ordered (.setMode 2 .runFree) (allGone town)) st = true) ∧
    stationsOf (allGone town) 2 = [8, 9] ∧
    (∃ st ∈ stationsOf (ordered (.setMode 2 .runFree) town) 2, stationLost (ordered (.setMode 2 .runFree) town) st = false) := by
  decide

/-- A crossing that the site does not configure; and a running one that a RUN target finds, with nothing to commit and with a call. -/
theorem witness_SetModeStarts_running :
    (handedOf 0 .setMode (ordered (.setMode 0 .runFree) town) = some ⟨first, .setMode 0 .runFree⟩ ∧
      configured (ordered (.setMode 0 .runFree) town) 0 = false) ∧
    (handedOf 0 .setMode (ordered (.setMode 2 .runFree) (green true [])) = some ⟨first, .setMode 2 .runFree⟩ ∧
      configured (ordered (.setMode 2 .runFree) (green true [])) 2 = true ∧
      headLost (ordered (.setMode 2 .runFree) (green true [])) 2 = false ∧
      (ordered (.setMode 2 .runFree) (green true [])).site.load = none ∧
      (ordered (.setMode 2 .runFree) (green true [])).crossings[(2 : Crossing)].state.running = true ∧
      (ordered (.setMode 2 .runFree) (green true [])).crossings[(2 : Crossing)].order = none) ∧
    (let s := ordered (.setMode 2 .runFree) (green true [])
     commitDue { s with crossings := s.crossings.set 2 { s.crossings[2] with mode := .runFree, mask := 0, order := none } } 2 =
       false) ∧
    (let s := ordered (.setMode 2 .runFree) (green true [call])
     commitDue { s with crossings := s.crossings.set 2 { s.crossings[2] with mode := .runFree, mask := 0, order := none } } 2 =
       true) := by decide

theorem witness_SetModeStops :
    (handedOf 0 .setMode (ordered (.setMode 2 .dark) (at3 .vehGreen)) = some ⟨first, .setMode 2 .dark⟩ ∧
      (ordered (.setMode 2 .dark) (at3 .vehGreen)).held = false ∧
      (ordered (.setMode 2 .dark) (at3 .vehGreen)).site.load = none ∧
      configured (ordered (.setMode 2 .dark) (at3 .vehGreen)) 2 = true ∧
      (ordered (.setMode 2 .dark) (at3 .vehGreen)).crossings[(2 : Crossing)].order = none ∧
      (ordered (.setMode 2 .dark) (at3 .vehGreen)).crossings[(2 : Crossing)].state = .vehGreen) ∧
    (handedOf 0 .setMode (ordered (.setMode 2 .maint) (at3 .walk)) = some ⟨first, .setMode 2 .maint⟩ ∧
      (ordered (.setMode 2 .maint) (at3 .walk)).crossings[(2 : Crossing)].state = .walk) ∧
    (handedOf 0 .setMode (ordered (.setMode 2 .maint) (at3 .maint)) = some ⟨first, .setMode 2 .maint⟩ ∧
      (ordered (.setMode 2 .maint) (at3 .maint)).crossings[(2 : Crossing)].state = .maint) := by decide

/-- No owner holds the ticket; and crossing 3 in STARTUP or in MAINT with an order that a STOP supersedes. -/
theorem witness_SetModeStops_supersedes :
    Unclaimed (ordered (.setMode 2 .dark) (at3 .vehGreen)) first ∧
    ((ordered (.setMode 2 .maint) (pendingAt ⟨⟨1, 1⟩, true, .runFree⟩ .startup)).crossings[(2 : Crossing)].order =
        some ⟨⟨1, 1⟩, true, .runFree⟩ ∧
      (ordered (.setMode 2 .maint) (pendingAt ⟨⟨1, 1⟩, true, .runFree⟩ .startup)).crossings[(2 : Crossing)].state = .startup) ∧
    ((ordered (.setMode 2 .maint) (pendingAt ⟨⟨1, 1⟩, true, .runFree⟩ .maint)).crossings[(2 : Crossing)].order =
        some ⟨⟨1, 1⟩, true, .runFree⟩ ∧ (⟨1, 1⟩ : Ticket) ≠ first) := by
  unfold Unclaimed
  decide

theorem witness_RemoteCallTaken :
    (handedOf 0 .remoteCall (ordered (.remoteCall 2 5 true) (at3 .startup)) = some ⟨first, .remoteCall 2 5 true⟩ ∧
      (ordered (.remoteCall 2 5 true) (at3 .startup)).held = false ∧
      (ordered (.remoteCall 2 5 true) (at3 .startup)).crossings[(2 : Crossing)].state = .startup) ∧
    (handedOf 0 .remoteCall (ordered (.remoteCall 2 2 false) (green false [])) = some ⟨first, .remoteCall 2 2 false⟩ ∧
      commitDue { withoutHanded (ordered (.remoteCall 2 2 false) (green false [])) ⟨first, .remoteCall 2 2 false⟩ with
        calls := town.calls.set 2 (listWith town [] .remote 2 false false) } 2 = false) ∧
    (commitDue { withoutHanded (ordered (.remoteCall 2 5 false) (green true [])) ⟨first, .remoteCall 2 5 false⟩ with
        calls := town.calls.set 2 (listWith town [] .remote 5 false false) } 2 = true ∧
      listTells [] .remote 5 = true) ∧
    (ordered (.remoteCall 2 5 true) (serving .walk)).crossings[(2 : Crossing)].service = some service ∧
    (ordered (.remoteCall 2 5 true) (serving .walk)).crossings[(2 : Crossing)].state = .walk ∧
    (ordered (.remoteCall 2 5 true) (at3 .maint)).crossings[(2 : Crossing)].state = .maint := by decide

/-- A walk that is not cut, of a service that is not accessible. -/
def strolling : State :=
  { at3 .walk with crossings := (at3 .walk).crossings.set 2 { (at3 .walk).crossings[2] with
      service := some { service with accessible := false }, walkStart := some 0, walkCut := false } }

theorem witness_RemoteCallTaken_walk :
    (ordered (.remoteCall 2 5 true) strolling).crossings[(2 : Crossing)].service = some { service with accessible := false } ∧
    (ordered (.remoteCall 2 5 true) strolling).crossings[(2 : Crossing)].state = .walk ∧
    (ordered (.remoteCall 2 5 true) strolling).crossings[(2 : Crossing)].walkCut = false ∧
    crossingRec? (ordered (.remoteCall 2 5 true) strolling) 2 = some crossing3 ∧
    (ordered (.remoteCall 2 5 true) strolling).crossings[(2 : Crossing)].timer = some 0 ∧
    (ordered (.remoteCall 2 5 true) strolling).crossings[(2 : Crossing)].walkStart = some 0 := by decide

theorem witness_CancelCallsTaken :
    (handedOf 0 .cancelCalls (ordered (.cancelCalls 2 false) (green false [call])) = some ⟨first, .cancelCalls 2 false⟩ ∧
      (ordered (.cancelCalls 2 false) (green false [call])).held = false ∧
      0 < ((green false [call]).calls[(2 : Crossing)].filter (fun e => false || (decide (e.source = .remote) && !e.recalled))).length) ∧
    handedOf 0 .cancelCalls (ordered (.cancelCalls 2 true) (green false [])) = some ⟨first, .cancelCalls 2 true⟩ := by decide

theorem witness_AnnounceTaken :
    (handedOf 0 .announce (ordered (.announce (.station 8) 2 [⟨0x10, 3⟩]) town) =
        some ⟨first, .announce (.station 8) 2 [⟨0x10, 3⟩]⟩ ∧
      List.findIdx? (descOutside town.site.phraseArea) [⟨0x10, 3⟩] = some 0) ∧
    (handedOf 0 .announce (ordered (.announce (.crossing 0) 3 [⟨0x402001, 3⟩]) town) =
        some ⟨first, .announce (.crossing 0) 3 [⟨0x402001, 3⟩]⟩ ∧
      stationsOf (ordered (.announce (.crossing 0) 3 [⟨0x402001, 3⟩]) town) 0 = [] ∧
      List.findIdx? (descOutside town.site.phraseArea) [⟨0x402001, 3⟩] = none ∧
      ticketLive (ordered (.announce (.crossing 0) 3 [⟨0x402001, 3⟩]) town) first = true) ∧
    (handedOf 0 .announce (ordered (.announce (.station 8) 2 [⟨0x402001, 3⟩]) (at3 .walk)) =
        some ⟨first, .announce (.station 8) 2 [⟨0x402001, 3⟩]⟩ ∧
      crossingOf (ordered (.announce (.station 8) 2 [⟨0x402001, 3⟩]) (at3 .walk)) 8 = some 2 ∧
      (ordered (.announce (.station 8) 2 [⟨0x402001, 3⟩]) (at3 .walk)).crossings[(2 : Crossing)].state.running = true ∧
      stationLost (ordered (.announce (.station 8) 2 [⟨0x402001, 3⟩]) (at3 .walk)) 8 = false ∧
      (ordered (.announce (.station 8) 2 [⟨0x402001, 3⟩]) (at3 .walk)).ann.contexts[(8 : Station)] = none ∧
      ticketLive (ordered (.announce (.station 8) 2 [⟨0x402001, 3⟩]) (at3 .walk)) first = true ∧
      (∃ d ∈ ([⟨0x402001, 3⟩] : List Desc), d.len ≠ 0)) := by decide

/-- The node of station 9 is LOST. -/
def stationGone (s : State) : State :=
  { s with line := { s.line with nodes := s.line.nodes.set 5 (some { node with lost := true }) } }

/-- An ANNOUNCE for station 9 handed over in slot 1. -/
def announcing (pr : Nat) (ds : List Desc) (s : State) : State := ordered (.announce (.station 8) pr ds) s

theorem witness_AnnounceTaken_ends :
    (handedOf 0 .announce (announcing 2 [⟨0x402001, 0⟩] town) = some ⟨first, .announce (.station 8) 2 [⟨0x402001, 0⟩]⟩ ∧
      crossingOf (announcing 2 [⟨0x402001, 0⟩] town) 8 = some 2 ∧
      List.findIdx? (descOutside town.site.phraseArea) [⟨0x402001, 0⟩] = none ∧
      ticketLive (announcing 2 [⟨0x402001, 0⟩] town) first = true ∧ Unclaimed (announcing 2 [⟨0x402001, 0⟩] town) first) ∧
    ((announcing 2 [⟨0x402001, 3⟩] (speaking context)).ann.contexts[(8 : Station)] = some context ∧ 2 ≤ context.priority) ∧
    ((announcing 2 [⟨0x402001, 3⟩] town).ann.contexts[(8 : Station)] = none ∧
      (announcing 2 [⟨0x402001, 3⟩] town).crossings[(2 : Crossing)].state.running = false) ∧
    ((announcing 2 [⟨0x402001, 3⟩] (stationGone (at3 .walk))).ann.contexts[(8 : Station)] = none ∧
      (announcing 2 [⟨0x402001, 3⟩] (stationGone (at3 .walk))).crossings[(2 : Crossing)].state.running = true ∧
      stationLost (announcing 2 [⟨0x402001, 3⟩] (stationGone (at3 .walk))) 8 = true) ∧
    (handedOf 0 .announce (announcing 3 [⟨0x402001, 3⟩] (speaking context)) =
        some ⟨first, .announce (.station 8) 3 [⟨0x402001, 3⟩]⟩ ∧ context.priority < 3) := by
  unfold Unclaimed
  decide

/-- A crossing with two stations: IDLE in a running state, speaking, or LOST. -/
def announcingAll (pr : Nat) (ds : List Desc) (s : State) : State := ordered (.announce (.crossing 2) pr ds) s

theorem witness_AnnounceTaken_crossing :
    (handedOf 0 .announce (announcingAll 3 [⟨0x402001, 3⟩] (speaking context)) =
        some ⟨first, .announce (.crossing 2) 3 [⟨0x402001, 3⟩]⟩ ∧
      stationsOf (announcingAll 3 [⟨0x402001, 3⟩] (speaking context)) 2 = [8, 9] ∧
      ticketLive (announcingAll 3 [⟨0x402001, 3⟩] (speaking context)) first = true ∧
      Unclaimed (announcingAll 3 [⟨0x402001, 3⟩] (speaking context)) first ∧
      (announcingAll 3 [⟨0x402001, 3⟩] (speaking context)).ann.contexts[(8 : Station)] = some context ∧ context.priority < 3 ∧
      (announcingAll 3 [⟨0x402001, 3⟩] (speaking context)).ann.contexts[(9 : Station)] = none) ∧
    ((announcingAll 3 [⟨0x402001, 3⟩] (at3 .walk)).crossings[(2 : Crossing)].state.running = true ∧
      stationLost (announcingAll 3 [⟨0x402001, 3⟩] (at3 .walk)) 9 = false ∧
      stationLost (announcingAll 3 [⟨0x402001, 3⟩] (stationGone (at3 .walk))) 8 = true) ∧
    ((∀ d ∈ ([⟨0x402001, 0⟩] : List Desc), d.len = 0) ∧
      (announcingAll 3 [⟨0x402001, 3⟩] town).crossings[(2 : Crossing)].state.running = false ∧
      (∀ st ∈ stationsOf (announcingAll 3 [⟨0x402001, 3⟩] town) 2,
        (announcingAll 3 [⟨0x402001, 3⟩] town).ann.contexts[st] = none) ∧
      JournalRoom (announcingAll 3 [⟨0x402001, 3⟩] town) 2) := by
  unfold Unclaimed JournalRoom
  decide

/-- The ANNOUNCE that LOCKOUT has ended, its slot HELD; and one whose slot is abandoned. -/
def announcingEnded (st : SlotState) : State :=
  let s := announcing 2 [⟨0x402001, 3⟩] { town with part := .lockout, safeOut := false }
  { s with orders := { s.orders with slots := s.orders.slots.set 0 ⟨1, st⟩ } }

theorem witness_AnnounceTaken_lockout :
    (handedOf 0 .announce (announcingEnded (.finished ⟨0x1000, 7, 2, true⟩ (Result.refused .aborted))) =
        some ⟨first, .announce (.station 8) 2 [⟨0x402001, 3⟩]⟩ ∧
      ticketLive (announcingEnded (.finished ⟨0x1000, 7, 2, true⟩ (Result.refused .aborted))) first = false ∧
      Unclaimed (announcingEnded (.finished ⟨0x1000, 7, 2, true⟩ (Result.refused .aborted))) first ∧
      (announcingEnded (.finished ⟨0x1000, 7, 2, true⟩ (Result.refused .aborted))).orders.slots[first.slot] =
        ⟨first.use, .finished ⟨0x1000, 7, 2, true⟩ (Result.refused .aborted)⟩ ∧
      (announcingEnded (.finished ⟨0x1000, 7, 2, true⟩ (Result.refused .aborted))).ann.contexts[(8 : Station)] = none ∧
      (∀ c, crossingOf (announcingEnded .free) 8 = some c → (announcingEnded .free).crossings[c].state.running = false)) ∧
    (ticketLive (announcingEnded .free) first = false ∧ (announcingEnded .free).orders.slots[first.slot] = ⟨1, .free⟩) := by
  unfold Unclaimed
  decide

theorem witness_StationTests :
    (handedOf 0 .testStation (ordered (.testStation 8 .loop) (at3 .maint)) = some ⟨first, .testStation 8 .loop⟩ ∧
      (ordered (.testStation 8 .loop) (at3 .maint)).held = false ∧
      crossingOf (ordered (.testStation 8 .loop) (at3 .maint)) 8 = some 2 ∧
      (ordered (.testStation 8 .loop) (at3 .maint)).crossings[(2 : Crossing)].state = .maint ∧
      stationLost (ordered (.testStation 8 .loop) (at3 .maint)) 8 = false ∧
      (ordered (.testStation 8 .loop) (at3 .maint)).line.tests[(8 : Station)] = .none) ∧
    (ordered (.testStation 8 .loop) (at3 .flash)).crossings[(2 : Crossing)].state ≠ .maint ∧
    stationLost { at3 .maint with line := { town.line with nodes := town.line.nodes.set 5 (some { node with lost := true }) } } 8 =
      true ∧
    (ordered (.testStation 8 .tone) (testing (.loop ⟨1, 1⟩ 3 3) (at3 .maint))).line.tests[(8 : Station)] ≠ .none ∧
    ((testing (.tone first (some 0)) town).line.tests[(8 : Station)] = .tone first (some 0) ∧
      (town.now - 0).toNat < 2147483648 ∧ 2147483648 ≤ (town.now - 1).toNat) := by decide

/-- A test of a station that a swap has left unconfigured. -/
theorem witness_StationTests_unconfigured :
    handedOf 0 .testStation (ordered (.testStation 20 .tone) town) = some ⟨first, .testStation 20 .tone⟩ ∧
    (ordered (.testStation 20 .tone) town).held = false ∧ crossingOf (ordered (.testStation 20 .tone) town) 20 = none := by decide

theorem witness_StationTests_abort :
    (testing (.loop first 3 3) (at3 .maint)).line.tests[(8 : Station)].ticket? = some first := by decide

/-- A test in MAINT, with a SET_MODE to DARK or to a RUN mode, a head in conflict and a mismatch in STEADY, and a head to be lost. -/
theorem witness_StationTests_leavesMaint :
    (∀ m ∈ [Mode.dark, .runFree],
      handedOf 0 .setMode (ordered (.setMode 2 m) (testing (.loop ⟨1, 1⟩ 3 3) (at3 .maint))) = some ⟨first, .setMode 2 m⟩) ∧
    (let s := ordered (.setMode 2 .runFree) (testing (.loop ⟨1, 1⟩ 3 3) (at3 .maint))
     s.held = false ∧ s.site.load = none ∧ configured s 2 = true ∧ s.crossings[(2 : Crossing)].state = .maint ∧
     headLost s 2 = false ∧ (8 : Station) ∈ stationsOf s 2 ∧ s.line.tests[(8 : Station)].ticket? = some ⟨1, 1⟩ ∧
     s.ann.tallies = [] ∧ s.crossings[(2 : Crossing)].order = none) ∧
    (let s := polling 4 (.normal Pair.flash 0) (testing (.loop ⟨1, 1⟩ 3 3) (at3 .maint))
     s.line.exchange = some ⟨4, .normal Pair.flash 0⟩ ∧ s.site.nodeMap[(4 : NodeAddr)] = .head 2 ∧
     s.line.nodes[(4 : NodeAddr)] = some node ∧ s.proofs[(2 : Crossing)] = some (proof Pair.flash) ∧
     (proof Pair.flash).flashCheck = false ∧ (proof Pair.flash).commanded = Pair.flash) ∧
    (Pair.ofCode 0x21).any (fun p => p.conflict) = true ∧ Pair.ofCode 0x13 ≠ some Pair.flash ∧
    ({ node with failRun := 2 } : NodeEntry).lost = false := by decide

theorem witness_CorridorHoldTaken :
    (handedOf 0 .corridorHold (ordered (.corridorHold true) (holding .idle false false town)) =
        some ⟨first, .corridorHold true⟩ ∧
      (ordered (.corridorHold true) (holding .idle false false town)).held = false ∧
      (ordered (.corridorHold true) (holding .idle false false town)).hold.state = .idle ∧
      (ordered (.corridorHold true) (holding .idle false false town)).hold.pinActive = false ∧
      (ordered (.corridorHold true) (holding .idle false false town)).hold.hostFlag = false ∧
      (∀ c : Crossing, (ordered (.corridorHold true) (holding .idle false false town)).crossings[c].state ≠ .redBeforeWalk ∧
        (ordered (.corridorHold true) (holding .idle false false town)).crossings[c].state ≠ .walk)) ∧
    (handedOf 0 .corridorHold (ordered (.corridorHold false) (holding .active true true town)) =
        some ⟨first, .corridorHold false⟩ ∧
      ((holding .active true true town).hold.pinActive || false) =
        ((holding .active true true town).hold.pinActive || (holding .active true true town).hold.hostFlag)) := by decide

/-- The link in order, for a hold that begins and for one that is released: FOLLOWING with no access under way, and with one that ends
in a stop. -/
theorem witness_CorridorHoldTaken_link :
    LinkInOrder (ordered (.corridorHold true) (holding .idle false false (linked .idle))) ∧
    LinkInOrder (ordered (.corridorHold false) (holding .spent true false (stopping (linked .link)))) ∧
    (handedOf 0 .corridorHold (ordered (.corridorHold false) (holding .spent true false (stopping (linked .link)))) =
        some ⟨first, .corridorHold false⟩ ∧
      (holding .spent true false town).hold.pinActive = false ∧ JournalRoom (holding .spent true false town) 1) := by
  unfold JournalRoom
  exact ⟨⟨fun _ => ⟨rfl, fun _ => rfl, nofun⟩, nofun⟩, ⟨fun _ => ⟨rfl, nofun, nofun⟩, nofun⟩, by decide⟩

/-- A hold that begins with crossing 3 in RED_BEFORE_WALK or in WALK, one that ends, and one that is released. -/
theorem witness_CorridorHoldTaken_crossings :
    (handedOf 0 .corridorHold (ordered (.corridorHold true) (holding .idle false false (serving .redBeforeWalk))) =
        some ⟨first, .corridorHold true⟩ ∧
      (holding .idle false false (serving .redBeforeWalk)).hold.state = .idle ∧
      Unclaimed (ordered (.corridorHold true) (holding .idle false false (serving .redBeforeWalk))) first) ∧
    (handedOf 0 .corridorHold (ordered (.corridorHold false) (holding .active true false (green true [call]))) =
        some ⟨first, .corridorHold false⟩ ∧
      (holding .active true false town).hold.state = .active ∧ (holding .active true false town).hold.pinActive = false ∧
      (holding .active true false town).hold.hostFlag = true) ∧
    ((holding .spent true false town).hold.state = .spent ∧ (holding .spent true false town).hold.hostFlag = true) ∧
    ((holding .idle true false town).hold.state = .idle ∧ (holding .idle true false town).hold.hostFlag = true ∧
      (holding .idle true false town).hold.pinActive = false) := by
  unfold Unclaimed
  decide

/-- A journal that has room for every record of the largest events. -/
theorem witness_rooms : JournalRoom town 53 ∧ holdRecords (holding .idle false false (serving .redBeforeWalk)) ≤ 128 := by
  unfold JournalRoom
  decide

/-- What a hold finds at crossing 3: RED_BEFORE_WALK with its entries or with a STOP pending, and WALK before and after 4.0 s. -/
theorem witness_HoldBegins :
    ((serving .redBeforeWalk).crossings[(2 : Crossing)].state = .redBeforeWalk ∧
      crossingRec? (serving .redBeforeWalk) 2 = some crossing3 ∧
      (serving .redBeforeWalk).crossings[(2 : Crossing)].service = some service ∧
      (serving .redBeforeWalk).crossings[(2 : Crossing)].order = none ∧
      (serving .redBeforeWalk).crossings[(2 : Crossing)].recalled = false ∧ (serving .redBeforeWalk).calls[(2 : Crossing)] = [] ∧
      (service.entries.map Entry.source).Nodup) ∧
    ((pendingAt ⟨first, false, .maint⟩ .redBeforeWalk).crossings[(2 : Crossing)].order = some ⟨first, false, .maint⟩ ∧
      (pendingAt ⟨first, false, .maint⟩ .redBeforeWalk).crossings[(2 : Crossing)].state = .redBeforeWalk) ∧
    ((serving .walk).crossings[(2 : Crossing)].state = .walk ∧ (serving .walk).crossings[(2 : Crossing)].walkStart = some 0 ∧
      2147483648 ≤ ((serving .walk).now - (0 + 4000#32)).toNat ∧
      (({ serving .walk with now := 4000 } : State).now - (0 + 4000#32)).toNat < 2147483648) ∧
    ((at3 .clearance).crossings[(2 : Crossing)].state ≠ .redBeforeWalk ∧ (at3 .clearance).crossings[(2 : Crossing)].state ≠ .walk) := by
  decide

/-- What the end of a hold finds at crossing 3: a commit that is due, and one that is not. -/
theorem witness_CommitsEvaluated :
    commitDue { green true [call] with hold := { (green true [call]).hold with state := .idle } } 2 = true ∧
    commitDue { green true [] with hold := { (green true []).hold with state := .spent } } 2 = false := by decide

/-! ### The street line -/

theorem witness_ScanRounds :
    (town.held = false ∧ 2147483648 ≤ (town.now - town.line.nextRound).toNat) ∧
    ((({ town with now := 50 } : State).now - ({ town with now := 50 } : State).line.nextRound).toNat < 2147483648 ∧
      ({ town with now := 50 } : State).part = .running ∧ ({ town with now := 50 } : State).site.inForce ≠ none ∧
      ({ town with now := 50 } : State).line.scanPos = none ∧ ({ town with now := 50 } : State).line.exchange = none ∧
      (∀ b : NodeAddr, b < 4 → town.site.nodeMap[b] = .none) ∧ town.site.nodeMap[(4 : NodeAddr)] = .head 2 ∧
      town.line.nodes[(4 : NodeAddr)] = some node ∧ node.lost = false) ∧
    ((polling 5 (.test 1) town).line.scanPos = some 6 ∧ State.reset.part ≠ .running) ∧
    ((∀ b : NodeAddr, b < 5 → ((Vector.replicate 64 NodeKind.none).set 5 (.station 8))[b] = .none) ∧
      ((Vector.replicate 64 NodeKind.none).set 5 (.station 8))[(5 : NodeAddr)] = .station 8 ∧
      town.line.nodes[(5 : NodeAddr)] = some node) ∧
    (∀ k n m, town.line.tests[(8 : Station)] ≠ .loop k n m) :=
  ⟨by decide, by decide, by decide, by decide, fun _ _ _ => nofun⟩

/-- A round is due, with crossing 3's head at the lowest address. -/
def headScan (e : NodeEntry) : State :=
  { town with now := 50, line := { town.line with nodes := town.line.nodes.set 4 (some e) } }

/-- A round is due, with station 9 at the lowest address, in a test. -/
def stationScan (t : TestState) (last : Bool) : State :=
  { town with
    now := 50
    site := { town.site with nodeMap := (Vector.replicate 64 .none).set 5 (.station 8) }
    line := { town.line with tests := town.line.tests.set 8 t, lastPollTest := town.line.lastPollTest.set 8 last } }

theorem witness_ScanRounds_lost :
    ((headScan { node with lost := true, probeCount := 19 }).site.nodeMap[(4 : NodeAddr)] = .head 2 ∧
      (headScan { node with lost := true, probeCount := 19 }).line.nodes[(4 : NodeAddr)] =
        some { node with lost := true, probeCount := 19 } ∧ 20 ≤ 19 + 1) ∧
    ((headScan { node with lost := true, probeCount := 18 }).line.nodes[(4 : NodeAddr)] =
        some { node with lost := true, probeCount := 18 } ∧ 18 + 1 < 20 ∧
      (headScan { node with lost := true, probeCount := 18 }).line.roundsWaiting = 0) := by decide

theorem witness_ScanRounds_test :
    ((∀ b : NodeAddr, b < 5 → (stationScan (.loop first 0 0) true).site.nodeMap[b] = .none) ∧
      (stationScan (.loop first 0 0) true).site.nodeMap[(5 : NodeAddr)] = .station 8 ∧
      (stationScan (.loop first 0 0) true).line.nodes[(5 : NodeAddr)] = some node ∧
      (stationScan (.loop first 0 0) true).line.tests[(8 : Station)] = .loop first 0 0 ∧
      (stationScan (.loop first 0 0) true).line.lastPollTest[(8 : Station)] = true) ∧
    ((stationScan (.loop first 0 0) false).line.tests[(8 : Station)] = .loop first 0 0 ∧
      ¬((0 : Nat) = 0 ∧ (stationScan (.loop first 0 0) false).line.lastPollTest[(8 : Station)] = true)) := by decide

theorem witness_HeadReplyProven :
    ((polling 4 (.normal ⟨.green, .dontWalk⟩ 0) (green false [])).held = false ∧
      (polling 4 (.normal ⟨.green, .dontWalk⟩ 0) (green false [])).line.exchange = some ⟨4, .normal ⟨.green, .dontWalk⟩ 0⟩ ∧
      (polling 4 (.normal ⟨.green, .dontWalk⟩ 0) (green false [])).site.nodeMap[(4 : NodeAddr)] = .head 2 ∧
      (polling 4 (.normal ⟨.green, .dontWalk⟩ 0) (green false [])).line.nodes[(4 : NodeAddr)] = some node ∧
      (polling 4 (.normal ⟨.green, .dontWalk⟩ 0) (green false [])).proofs[(2 : Crossing)] =
        some (proof ⟨.green, .dontWalk⟩)) ∧
    (Pair.ofCode (0x11#8 : Byte).toNat = some ⟨.green, .dontWalk⟩ ∧ (⟨.green, .dontWalk⟩ : Pair).conflict = false ∧
      (proof ⟨.green, .dontWalk⟩).state = .checking) ∧
    (Pair.ofCode (0x21#8 : Byte).toNat = some ⟨.green, .walk⟩ ∧ (⟨.green, .walk⟩ : Pair).conflict = true ∧
      (green false []).crossings[(2 : Crossing)].state = .vehGreen ∧ (green false []).crossings[(2 : Crossing)].order = none) ∧
    (Pair.ofCode (0x13#8 : Byte).toNat = some ⟨.red, .dontWalk⟩ ∧ (⟨.red, .dontWalk⟩ : Pair).conflict = false ∧
      JournalRoom (green false []) 5) := ⟨by decide, by decide, by decide, rfl, rfl, rfl, by decide⟩

/-- Crossing 3 in a state, with a proof record and its NORMAL poll under way. -/
def proving (st : CrossingState) (p : ProofRec) : State :=
  { polling 4 (.normal st.aspects 0) (at3 st) with proofs := (Vector.replicate 8 none).set 2 (some p) }

/-- The pair differs: in CHECKING with an allowance of 2 and of 1, in STEADY, and in WAIVED; a new lamp flag; a conflict in MAINT. -/
theorem witness_HeadReplyProven_differs :
    ((proving .vehGreen { proof ⟨.green, .dontWalk⟩ with allowance := 2 }).line.exchange =
        some ⟨4, .normal ⟨.green, .dontWalk⟩ 0⟩ ∧
      (proving .vehGreen { proof ⟨.green, .dontWalk⟩ with allowance := 2 }).proofs[(2 : Crossing)] =
        some { proof ⟨.green, .dontWalk⟩ with allowance := 2 } ∧
      (proof ⟨.green, .dontWalk⟩).commanded ≠ ⟨.red, .dontWalk⟩ ∧ 2 ≤ 2) ∧
    ((proof ⟨.green, .dontWalk⟩).state = .checking ∧ (proof ⟨.green, .dontWalk⟩).allowance ≤ 1) ∧
    (proving .vehGreen { proof ⟨.green, .dontWalk⟩ with state := .steady, allowance := 0 }).proofs[(2 : Crossing)] =
      some { proof ⟨.green, .dontWalk⟩ with state := .steady, allowance := 0 } ∧
    (proving .startup { proof ⟨.red, .dontWalk⟩ with state := .waived }).proofs[(2 : Crossing)] =
      some { proof ⟨.red, .dontWalk⟩ with state := .waived } ∧
    ((0x8#8 : Byte).getLsbD 3 = true ∧ (proof ⟨.green, .dontWalk⟩).lamps.getLsbD 3 = false) ∧
    ((proving .maint (proof Pair.flash)).crossings[(2 : Crossing)].state = .maint ∧ (proof Pair.flash).flashCheck = false ∧
      (⟨.green, .walk⟩ : Pair).conflict = true) := by decide

/-- Crossing 3 in FLASH: a stale reply, and a conflict; and a crossing that a fault takes with a START and with a STOP pending. -/
theorem witness_HeadReplyProven_flash :
    ((proving .flash (proof Pair.flash)).crossings[(2 : Crossing)].state = .flash ∧
      Pair.dark ≠ (proof Pair.flash).commanded ∧ (⟨.green, .walk⟩ : Pair).conflict = true ∧
      (proof Pair.flash).state = .checking) ∧
    ((pendingAt ⟨first, true, .runFree⟩ .startup).crossings[(2 : Crossing)].order = some ⟨first, true, .runFree⟩ ∧
      NoTestOrTally (pendingAt ⟨first, true, .runFree⟩ .startup) first) ∧
    ((pendingAt ⟨first, false, .maint⟩ .walk).crossings[(2 : Crossing)].order = some ⟨first, false, .maint⟩ ∧
      NoTestOrTally (pendingAt ⟨first, false, .maint⟩ .walk) first ∧
      (stationsOf (pendingAt ⟨first, false, .maint⟩ .walk) 2).length = 2 ∧
      JournalRoom (pendingAt ⟨first, false, .maint⟩ .walk) 10) := by
  unfold NoTestOrTally JournalRoom
  decide

theorem witness_SecondFailureLocksOut :
    (polling 4 (.normal Pair.flash 0) (at3 .flash)).held = false ∧
    (polling 4 (.normal Pair.flash 0) (at3 .flash)).line.exchange = some ⟨4, .normal Pair.flash 0⟩ ∧
    (polling 4 (.normal Pair.flash 0) (at3 .flash)).site.nodeMap[(4 : NodeAddr)] = .head 2 ∧
    (polling 4 (.normal Pair.flash 0) (at3 .flash)).line.nodes[(4 : NodeAddr)] = some node ∧ node.lost = false ∧
    (polling 4 (.normal Pair.flash 0) (at3 .flash)).proofs[(2 : Crossing)] = some (proof Pair.flash) ∧
    Pair.ofCode (0x13#8 : Byte).toNat = some ⟨.red, .dontWalk⟩ ∧
    (polling 4 (.normal Pair.flash 0) (at3 .flash)).crossings[(2 : Crossing)].state = .flash ∧
    Pair.flash = (proof Pair.flash).commanded ∧ (⟨.red, .dontWalk⟩ : Pair) ≠ (proof Pair.flash).commanded ∧
    (proof Pair.flash).state = .checking ∧ (proof Pair.flash).allowance = 1 ∧
    (polling 4 (.normal Pair.flash 0) (at3 .flash)).journal.lost = 0 := by decide

/-- The flash check met in MAINT, and in STEADY. -/
theorem witness_SecondFailureLocksOut_maint :
    ((proving .maint { proof Pair.flash with flashCheck := true }).line.exchange = some ⟨4, .normal Pair.flash 0⟩ ∧
      (proving .maint { proof Pair.flash with flashCheck := true }).crossings[(2 : Crossing)].state = .maint ∧
      (proving .maint { proof Pair.flash with flashCheck := true }).proofs[(2 : Crossing)] =
        some { proof Pair.flash with flashCheck := true }) ∧
    (proving .flash { proof Pair.flash with state := .steady, allowance := 0 }).proofs[(2 : Crossing)] =
      some { proof Pair.flash with state := .steady, allowance := 0 } := by decide

/-- A station reply of address 5: button up, press counter 3, ambient 5, room 4, played 17. -/
def stationBytes : List Byte := [5, 0x32#8, 0, 0x45#8, 17, 0, crc8 [5, 0x32#8, 0, 0x45#8, 17, 0]]

/-- Station 9 has answered before with a press counter. -/
def answered (n : Option Nat) (s : State) : State :=
  { s with press := s.press.set 8 { last := n, inProgress := false, longTaken := false, stuck := false } }

theorem witness_StationReplyDelivered :
    ((polling 5 (.station default) (at3 .clearance)).held = false ∧
      (polling 5 (.station default) (at3 .clearance)).line.exchange = some ⟨5, .station default⟩ ∧
      (polling 5 (.station default) (at3 .clearance)).site.nodeMap[(5 : NodeAddr)] = .station 8 ∧
      (polling 5 (.station default) (at3 .clearance)).line.nodes[(5 : NodeAddr)] = some node ∧
      crossingOf (polling 5 (.station default) (at3 .clearance)) 8 = some 2) ∧
    ((classify ⟨5, .station default⟩ stationBytes).map (fun r => match r with
      | .station f => decide (f.pressCounter = 3 ∧ f.down = false ∧ f.ambient = 5 ∧ f.played = 17)
      | .head _ _ => false
      | .echo _ => false)) = some true ∧
    (polling 5 (.station default) (at3 .clearance)).press[(8 : Station)].last = none ∧
    ((answered (some 2) (at3 .clearance)).press[(8 : Station)].last = some 2 ∧
      (answered (some 2) (at3 .clearance)).press[(8 : Station)].stuck = false ∧
      (answered (some 2) (at3 .clearance)).crossings[(2 : Crossing)].state = .clearance) := by decide +kernel

/-- A station reply of address 5: status byte, hold byte and test byte; ambient 5, room 4, played 17. -/
def replyBytes (status hold test : Byte) : List Byte :=
  [5, status, hold, 0x45#8, 17, test, crc8 [5, status, hold, 0x45#8, 17, test]]

/-- Down, hold, press counter and test result of a reply to a station's poll, with the free count 4 and the played counter 17. -/
def readReply (bytes : List Byte) (p : StationFields → Bool) : Bool :=
  match classify ⟨5, .station default⟩ bytes with
  | some (.station f) => p f && decide (f.free = 4 ∧ f.played = 17)
  | some (.head _ _) => false
  | some (.echo _) => false
  | none => false

/-- A press held for less than the threshold, one held to it, one held for ever, and a test level. -/
theorem witness_StationReplyDelivered_replies :
    readReply (replyBytes 0x33#8 14 0) (fun f => decide (f.down = true ∧ f.pressCounter = 3 ∧ f.hold = 14)) = true ∧
    readReply (replyBytes 0x33#8 15 0) (fun f => decide (f.down = true ∧ f.pressCounter = 3 ∧ f.hold = 15)) = true ∧
    readReply (replyBytes 0x33#8 255 0) (fun f => decide (f.down = true ∧ f.hold = 255)) = true ∧
    readReply (replyBytes 0x32#8 0 0xF2#8) (fun f => decide (f.down = false ∧ f.test = .level 15)) = true ∧
    crossing3.longPress = 15 := by decide +kernel

/-- Station 9's press is in progress, its long event not yet taken. -/
def pressing (s : State) : State :=
  { s with press := s.press.set 8 { last := some 3, inProgress := true, longTaken := false, stuck := false } }

/-- The link is FOLLOWING and the spoken information of crossing 3 is usable. -/
def informed (s : State) : State :=
  { s with
    site := { s.site with usable := s.site.usable.set 2 [true, true] }
    orders := { s.orders with link := .following } }

/-- The first and the second good reply of a LOST station. -/
theorem witness_StationReplyDelivered_lost :
    ((stationGone (at3 .clearance)).line.nodes[(5 : NodeAddr)] = some { node with lost := true } ∧
      ({ node with lost := true } : NodeEntry).goodRun + 1 < 2) ∧
    2 ≤ ({ node with lost := true, goodRun := 1 } : NodeEntry).goodRun + 1 := by
  decide

/-- New presses in each group of states, and with commit due. -/
theorem witness_StationReplyDelivered_presses :
    ((answered (some 2) (green false [])).press[(8 : Station)].last ≠ none ∧
      (answered (some 2) (green false [])).press[(8 : Station)].last ≠ some 3 ∧
      (answered (some 2) (green false [])).press[(8 : Station)].stuck = false ∧
      commitDue { green false [] with calls := town.calls.set 2 (listWith town [] (.station 8) 1 false false) } 2 = false ∧
      commitDue { green true [] with calls := town.calls.set 2 (listWith town [] (.station 8) 1 false false) } 2 = true ∧
      listTells [] (.station 8) 1 = true) ∧
    ((serving .walk).crossings[(2 : Crossing)].service = some service ∧ (serving .walk).crossings[(2 : Crossing)].state = .walk) ∧
    (at3 .maint).crossings[(2 : Crossing)].state = .maint := by decide

/-- The event of a station's reply is the last of its exchange: no further node, no round waiting. -/
theorem witness_LongEventsAndAcknowledgements_once :
    (∀ b : NodeAddr, (polling 5 (.station default) (pressing (at3 .startup))).site.nodeMap[b] = .station 8 → b = 5) ∧
    (polling 5 (.station default) (pressing (at3 .startup))).line.scanPos = some 6 ∧ (5 : NodeAddr).val < 6 ∧
    (polling 5 (.station default) (pressing (at3 .startup))).line.roundsWaiting = 0 := by decide

/-- A press that goes on, and a new one, held to the threshold, in each group of states; with the commit not due, due by the press,
and due by the long event alone under a mask of 2; with the spoken information asked for; and one that becomes STUCK. -/
theorem witness_LongEventsAndAcknowledgements :
    ((answered (some 2) (at3 .startup)).press[(8 : Station)].last ≠ none ∧
      (answered (some 2) (at3 .startup)).press[(8 : Station)].last ≠ some 3 ∧
      (answered (some 2) (at3 .startup)).press[(8 : Station)].stuck = false ∧
      (crossingRec (answered (some 2) (at3 .startup)) 2).longPress ≤ 15) ∧
    (let masked (elapsed : Bool) (es : List Entry) : State := { green elapsed es with
       crossings := (green elapsed es).crossings.set 2 { (green elapsed es).crossings[2] with mask := 2 } }
     let pressed := listWith town [] (.station 8) 1 false false
     let longed := listWith town pressed (.station 8) 3 true false
     (commitDue (green false pressed) 2 = false ∧ commitDue (green false longed) 2 = false) ∧
     (commitDue (green true pressed) 2 = true ∧ listTells [] (.station 8) 1 = true) ∧
     (commitDue (masked true pressed) 2 = false ∧ commitDue (masked true longed) 2 = true ∧
       listTells pressed (.station 8) 3 = true ∧ listTells [] (.station 8) 3 = true)) ∧
    ((serving .walk).crossings[(2 : Crossing)].service = some service ∧ (serving .walk).crossings[(2 : Crossing)].state = .walk) ∧
    (at3 .flash).crossings[(2 : Crossing)].state = .flash ∧
    ((pressing (at3 .startup)).press[(8 : Station)].last = some 3 ∧ (pressing (at3 .startup)).press[(8 : Station)].inProgress = true ∧
      (pressing (at3 .startup)).press[(8 : Station)].longTaken = false ∧ (crossingRec (pressing (at3 .startup)) 2).longPress ≤ 15) ∧
    ((pressing (informed (at3 .startup))).orders.link = .following ∧
      (pressing (informed (at3 .startup))).ann.contexts[(8 : Station)] = none ∧
      stationLost (pressing (informed (at3 .startup))) 8 = false ∧ usableInfo (pressing (informed (at3 .startup))) 2 ≠ [] ∧
      (∃ d ∈ usableInfo (pressing (informed (at3 .startup))) 2, d.len ≠ 0) ∧ site.nameStore[(2 : Crossing)] ≠ [] ∧
      (pressing (informed (at3 .startup))).crossings[(2 : Crossing)].state.running = true) := by decide

/-- Station 9 has answered with press counter 3 and played counter 16, and has an announcement. -/
def spoken (x : Context) : State :=
  { speaking x with press := (pressing town).press, ann := { (speaking x).ann with baseline := town.ann.baseline.set 8 (some 16) } }

/-- The last clip confirmed, a fault that acts now, and an announcement that goes on; a poll that carried FLUSH; a tone test. -/
theorem witness_StationReplyDelivered_engine :
    ((spoken { context with send := 3, confirmed := 2, buffer := [.good 7] }).press[(8 : Station)].last = some 3 ∧
      (spoken { context with send := 3, confirmed := 2, buffer := [.good 7] }).ann.baseline[(8 : Station)] = some 16 ∧
      (17 + 256 - 16) % 256 = 1 ∧ min 1 (3 - 2) = 1 ∧
      ({ context with send := 3, confirmed := 2, buffer := [.good 7] } : Context).total
        (nameClips (spoken context) 8) = 2 + 1) ∧
    (({ context with buffer := [.fetchFault] } : Context).send = 0 ∧
      ({ context with buffer := [.fetchFault] } : Context).buffer.head? = some .fetchFault ∧ 0 ≠ context.total []) ∧
    (context.buffer.head? ≠ some .fetchFault ∧ context.buffer.head? ≠ some .formatFault) ∧
    ((∀ b : NodeAddr, town.site.nodeMap[b] = .station 8 → b = 5) ∧
      (∃ p, (polling 5 (.station { (default : StationPoll) with cmd := .flush }) (spoken context)).line.scanPos = some p ∧
        (5 : NodeAddr).val < p) ∧
      (polling 5 (.station { (default : StationPoll) with cmd := .flush }) (spoken context)).line.roundsWaiting = 0) ∧
    ((testing (.tone first (some 5)) (pressing (at3 .maint))).line.tests[(8 : Station)] = .tone first (some 5) ∧
      (testing (.tone first (some 5)) (pressing (at3 .maint))).ann.tallies = []) :=
  ⟨by decide, by decide, by decide, ⟨by decide, ⟨6, by decide, by decide⟩, by decide⟩, by decide⟩

theorem witness_StationTests_echo :
    ((polling 5 (.test 32) (testing (.loop first 32 31) (at3 .maint))).held = false ∧
      (polling 5 (.test 32) (testing (.loop first 32 31) (at3 .maint))).line.exchange = some ⟨5, .test 32⟩ ∧
      (polling 5 (.test 32) (testing (.loop first 32 31) (at3 .maint))).site.nodeMap[(5 : NodeAddr)] = .station 8 ∧
      (polling 5 (.test 32) (testing (.loop first 32 31) (at3 .maint))).line.nodes[(5 : NodeAddr)] = some node ∧
      (polling 5 (.test 32) (testing (.loop first 32 31) (at3 .maint))).line.tests[(8 : Station)] = .loop first 32 31 ∧
      (polling 5 (.test 32) (testing (.loop first 32 31) (at3 .maint))).line.scanPos = some 6 ∧ (5 : NodeAddr).val < 6 ∧
      (polling 5 (.test 32) (testing (.loop first 32 31) (at3 .maint))).line.roundsWaiting = 0 ∧
      (∀ b : NodeAddr, town.site.nodeMap[b] = .station 8 → b = 5)) ∧
    (polling 5 (.test 31) (testing (.loop first 31 31) (at3 .maint))).line.tests[(8 : Station)] = .loop first 31 31 := by decide

/-- The first and the second good reply of a LOST head to a PROBE. -/
theorem witness_HeadReplyProven_found :
    (polling 4 .probe (headGone (at3 .flash))).line.exchange = some ⟨4, .probe⟩ ∧
    (headGone (at3 .flash)).line.nodes[(4 : NodeAddr)] = some { node with lost := true } ∧
    (headGone (at3 .flash)).proofs[(2 : Crossing)].isSome = true ∧
    (classify ⟨4, .probe⟩ [4, 0, 0, crc8 [4, 0, 0]]).isSome = true ∧
    ({ node with lost := true } : NodeEntry).goodRun + 1 < 2 ∧
    2 ≤ ({ node with lost := true, goodRun := 1 } : NodeEntry).goodRun + 1 := by decide +kernel

/-- The node of crossing 3's head after a run of failures. -/
def failing (n : Nat) (s : State) : State :=
  { s with line := { s.line with nodes := s.line.nodes.set 4 (some { node with failRun := n }) } }

/-- A NORMAL poll with a countdown and a PROBE that are answered, and a TEST poll that is echoed. -/
theorem witness_NodesFollowPolls :
    ((polling 4 (.normal ⟨.red, .flashDontWalk⟩ 18) (at3 .clearance)).line.exchange =
        some ⟨4, .normal ⟨.red, .flashDontWalk⟩ 18⟩ ∧
      (classify ⟨4, .normal ⟨.red, .flashDontWalk⟩ 18⟩ [4, 0x33#8, 0, crc8 [4, 0x33#8, 0]]).isSome = true ∧
      (at3 .clearance).safeOut = true) ∧
    (classify ⟨4, .probe⟩ [4, 0, 0, crc8 [4, 0, 0]]).isSome = true ∧
    (classify ⟨5, .test 1⟩ (5 :: testPattern 1 ++ [crc8 (5 :: testPattern 1)])).isSome = true := by decide +kernel

/-- A node that shows a pair, its watch at its end one millisecond on, and not yet. -/
theorem witness_NodesFollowPolls_watch :
    (town.held = false ∧ town.pending = []) ∧
    (some (1 : Time)).any (fun w => decide ((town.now + 1 - w).toNat < 2147483648)) = true ∧
    (some (2 : Time)).any (fun w => decide ((town.now + 1 - w).toNat < 2147483648)) = false := by decide

/-- A name cue that goes on in the cue that its node has, and clips for a queue with one clip in it. -/
theorem witness_NodesFollowPolls_audio :
    let cue : StationPoll := { (default : StationPoll) with cmd := .sound .nameCue, clips := [17, 88], cueLen := 5, cuePos := 2 }
    let clips : StationPoll := { (default : StationPoll) with cmd := .clips, clips := [7, 8] }
    (polling 5 (.station cue) (at3 .walk)).line.exchange = some ⟨5, .station cue⟩ ∧
    (classify ⟨5, .station cue⟩ stationBytes).isSome = true ∧ (classify ⟨5, .station clips⟩ stationBytes).isSome = true ∧
    cue.clips[(3 : Fin 16).val - cue.cuePos]? = some 88 := by decide +kernel

theorem witness_FailedExchanges :
    (town.held = false ∧ town.line.exchange = none) ∧
    ((polling 4 (.normal Pair.flash 0) (failing 2 (at3 .vehGreen))).line.exchange = some ⟨4, .normal Pair.flash 0⟩ ∧
      classify ⟨4, .normal Pair.flash 0⟩ [1, 2, 3] = none ∧
      (polling 4 (.normal Pair.flash 0) (failing 2 (at3 .vehGreen))).line.nodes[(4 : NodeAddr)] =
        some { node with failRun := 2 } ∧
      (polling 4 (.normal Pair.flash 0) (failing 2 (at3 .vehGreen))).site.nodeMap[(4 : NodeAddr)] = .head 2 ∧
      2 ≤ ({ node with failRun := 2 } : NodeEntry).failRun ∧
      (polling 4 (.normal Pair.flash 0) (failing 2 (at3 .vehGreen))).proofs[(2 : Crossing)].isSome = true ∧
      (polling 4 (.normal Pair.flash 0) (failing 2 (at3 .vehGreen))).crossings[(2 : Crossing)].order = none ∧
      (polling 4 (.normal Pair.flash 0) (failing 2 (at3 .vehGreen))).journal.fifo.length + 37 ≤ 128) ∧
    (polling 5 (.station default) (at3 .vehGreen)).site.nodeMap[(5 : NodeAddr)] ≠ .none := by decide

/-- The node of station 9 after a run of failures. -/
def stationFailing (n : Nat) (s : State) : State :=
  { s with line := { s.line with nodes := s.line.nodes.set 5 (some { node with failRun := n }) } }

/-- The third failure in a run of a head of a crossing in FLASH, and of one in WALK with a STOP pending. -/
theorem witness_FailedExchanges_head :
    ((polling 4 (.normal Pair.flash 0) (failing 2 (at3 .flash))).crossings[(2 : Crossing)].state = .flash ∧
      (failing 2 (at3 .flash)).line.nodes[(4 : NodeAddr)] = some { node with failRun := 2 }) ∧
    ((failing 2 (pendingAt ⟨first, false, .maint⟩ .walk)).crossings[(2 : Crossing)].order = some ⟨first, false, .maint⟩ ∧
      (failing 2 (pendingAt ⟨first, false, .maint⟩ .walk)).crossings[(2 : Crossing)].state ≠ .flash ∧
      (failing 2 (pendingAt ⟨first, false, .maint⟩ .walk)).proofs[(2 : Crossing)].isSome = true) := by decide

/-- A poll with clips, the third failure in a run of a station under test, and the last TEST poll. -/
theorem witness_FailedExchanges_station :
    ((polling 5 (.station { (default : StationPoll) with cmd := .clips }) (stationFailing 2 (speaking context))).line.exchange =
        some ⟨5, .station { (default : StationPoll) with cmd := .clips }⟩ ∧
      town.site.nodeMap[(5 : NodeAddr)] = .station 8) ∧
    ((stationFailing 2 (testing (.tone first none) (at3 .maint))).line.nodes[(5 : NodeAddr)] = some { node with failRun := 2 } ∧
      (stationFailing 2 (testing (.tone first none) (at3 .maint))).line.tests[(8 : Station)].ticket? = some first ∧
      (stationFailing 2 (testing (.tone first none) (at3 .maint))).ann.tallies = []) ∧
    ((polling 5 (.test 32) (testing (.loop first 32 31) (at3 .maint))).line.exchange = some ⟨5, .test 32⟩ ∧
      (testing (.loop first 32 31) (at3 .maint)).line.tests[(8 : Station)] = .loop first 32 31 ∧ node.failRun < 2) := by
  decide

theorem witness_NodeStatesAndRuns :
    ((2 ≤ 3 ∧ 3 ≤ 3) ∧ ({ node with failRun := 2 } : NodeEntry).lost = false ∧ 3 ≤ 2 + 1) ∧
    (({ node with lost := true, goodRun := 1 } : NodeEntry).lost = true ∧ 2 ≤ 1 + 1) ∧
    (({ node with lost := true } : NodeEntry).goodRun + 1 < 2) ∧ (node.failRun + 1 < 3) ∧
    town.site.nodeMap[(5 : NodeAddr)] ≠ .none := by decide

theorem witness_StationPollsAndTheirSending :
    (crossingOf (at3 .walk) 8 = some 2 ∧ crossingRec? (at3 .walk) 2 = some crossing3 ∧
      (at3 .walk).crossings[(2 : Crossing)].state = .walk) ∧
    (({ at3 .walk with cues := { town.cues with cue := town.cues.cue.set 2 (.pattern 1) } } : State).cues.cue[(2 : Crossing)] =
        .pattern 1 ∧
      ({ at3 .walk with cues := { town.cues with cue := town.cues.cue.set 2 .name } } : State).cues.cue[(2 : Crossing)] = .name ∧
      ({ at3 .walk with cues := { town.cues with cue := town.cues.cue.set 2 .awaiting } } : State).cues.cue[(2 : Crossing)] =
        .awaiting) ∧
    (at3 .flash).crossings[(2 : Crossing)].state = .flash ∧ (at3 .redAfterWalk).crossings[(2 : Crossing)].state = .redAfterWalk ∧
    (at3 .clearance).crossings[(2 : Crossing)].state = .clearance := by decide

/-- Station 9 with an announcement whose clips may go out. -/
def offering : State :=
  { at3 .vehGreen with
    line := { town.line with confirmed := town.line.confirmed.set 8 (some .locator) }
    ann := { town.ann with
      contexts := town.ann.contexts.set 8 (some { context with buffer := [.good 1, .good 2, .fetchFault] })
      room := town.ann.room.set 8 (some 4) } }

/-- Each audio command is wanted in its turn. -/
theorem witness_StationPollsAndTheirSending_audio :
    (∃ k, (∃ e, (testing (.tone first (some 0)) (at3 .maint)).line.tests[(8 : Station)] = .tone k (some e)) ∨
      ((testing (.tone first (some 0)) (at3 .maint)).line.tests[(8 : Station)] = .tone k none ∧
        (testing (.tone first (some 0)) (at3 .maint)).line.lastPollTest[(8 : Station)] = false)) ∧
    offer offering 8 = [1, 2] ∧ wantedSound offering 8 = .locator ∧
    offering.line.flushPending[(8 : Station)] = false ∧ offering.line.ackPending[(8 : Station)] = false ∧
    (offering.ann.contexts[(8 : Station)] = some { context with buffer := [.good 1, .good 2, .fetchFault] } ∧
      offering.ann.room[(8 : Station)] = some 4) :=
  ⟨⟨first, .inl ⟨0, rfl⟩⟩, by decide, by decide, by decide, by decide, by decide⟩

/-- Station 9 at a place of its announcement. -/
def offeringAt (send : Nat) (places : List Place) : State :=
  { offering with ann := { offering.ann with
    contexts := offering.ann.contexts.set 8 (some { context with send := send, buffer := places }) } }

/-- One good place stands next: the last filled one, and one before a mark; and the room for it or none. -/
theorem witness_StationPollsAndTheirSending_one :
    (offer (offeringAt 0 [.good 1]) 8 = [1] ∧ List.drop (0 - context.confirmed) [Place.good 1] = .good 1 :: []) ∧
    (offer (offeringAt 1 [.good 1, .good 2, .fetchFault]) 8 = [2] ∧
      List.drop (1 - context.confirmed) [Place.good 1, .good 2, .fetchFault] = .good 2 :: [.fetchFault]) ∧
    ((offeringAt 0 [.good 1]).ann.room[(8 : Station)] = some 4 ∧ [1].take 4 = [1] ∧ [1].take 0 = ([] : List Nat)) := by decide

/-! ### Calls and the walk cycle -/

theorem witness_CallsMergeAndEscalate_escalates :
    (green false [call]).held = false ∧
    (green false [call]).calls[(2 : Crossing)].find? (fun e => decide (e.source = .remote)) = some call ∧
    call.expiry = some 0 ∧ ((green false [call]).now - 0).toNat < 2147483648 ∧
    2147483648 ≤ ((green false [call]).now - 1).toNat ∧
    commitDue (green false [{ call with grade := 4, expiry := none }]) 2 = false ∧
    commitDue (green true [{ call with grade := 4, expiry := none }]) 2 = true := by decide

theorem witness_CallsMergeAndEscalate :
    [call].find? (fun e => decide (e.source = .remote)) = some call ∧ [call][0]? = some call ∧ 0 < [call].length ∧
    [call].find? (fun e => decide (e.source = .station 8)) = none := by decide

theorem witness_MinimumGreenEnds :
    ((green false [call]).held = false ∧ crossingRec? (green false [call]) 2 = some crossing3 ∧
      (green false [call]).crossings[(2 : Crossing)].state = .vehGreen ∧
      (green false [call]).crossings[(2 : Crossing)].minGreen = some (0, false) ∧
      ((green false [call]).now - 0).toNat < 2147483648) ∧
    ((green false [call]).hold.state ≠ .active ∧ (green false [call]).crossings[(2 : Crossing)].mode = .runFree ∧
      (green false [call]).crossings[(2 : Crossing)].order = none ∧
      ∃ y ∈ (green false [call]).calls[(2 : Crossing)], (green false [call]).crossings[(2 : Crossing)].mask < y.grade) ∧
    (green false []).calls[(2 : Crossing)] = [] := by decide

theorem witness_VehGreenEntered :
    ((at3 .startup).held = false ∧ crossingRec? (at3 .startup) 2 = some crossing3 ∧
      (at3 .startup).crossings[(2 : Crossing)].state = .startup ∧ (at3 .startup).crossings[(2 : Crossing)].timer = some 0 ∧
      ((at3 .startup).now - 0).toNat < 2147483648 ∧ (at3 .startup).crossings[(2 : Crossing)].order = none ∧
      (at3 .startup).crossings[(2 : Crossing)].recalled = false ∧
      ({ (at3 .startup).crossings[2] with recalled := true } : CrossingRecord).recalled = true) ∧
    (at3 .redAfterWalk).crossings[(2 : Crossing)].state = .redAfterWalk ∧
    (pendingAt ⟨first, true, .runFree⟩ .startup).crossings[(2 : Crossing)].order = some ⟨first, true, .runFree⟩ ∧
    (pendingAt ⟨first, false, .maint⟩ .redAfterWalk).crossings[(2 : Crossing)].order = some ⟨first, false, .maint⟩ ∧
    NoTestOrTally (pendingAt ⟨first, false, .maint⟩ .redAfterWalk) first := by
  unfold NoTestOrTally
  decide

theorem witness_AmberAndWalk :
    ((at3 .vehAmber).held = false ∧ crossingRec? (at3 .vehAmber) 2 = some crossing3 ∧
      (at3 .vehAmber).crossings[(2 : Crossing)].state = .vehAmber ∧ (at3 .vehAmber).crossings[(2 : Crossing)].timer = some 0 ∧
      ((at3 .vehAmber).now - 0).toNat < 2147483648 ∧ 2147483648 ≤ ((at3 .vehAmber).now - 2147483648).toNat) ∧
    ((serving .redBeforeWalk).held = false ∧ crossingRec? (serving .redBeforeWalk) 2 = some crossing3 ∧
      (serving .redBeforeWalk).crossings[(2 : Crossing)].state = .redBeforeWalk ∧
      (serving .redBeforeWalk).crossings[(2 : Crossing)].timer = some 0 ∧
      (serving .redBeforeWalk).hold.state ≠ .active ∧
      (serving .redBeforeWalk).crossings[(2 : Crossing)].service = some service) := by decide

theorem witness_HoldReturnsTheWalk :
    (holding .active false true (serving .redBeforeWalk)).held = false ∧
    crossingRec? (holding .active false true (serving .redBeforeWalk)) 2 = some crossing3 ∧
    (holding .active false true (serving .redBeforeWalk)).crossings[(2 : Crossing)].state = .redBeforeWalk ∧
    (holding .active false true (serving .redBeforeWalk)).crossings[(2 : Crossing)].timer = some 0 ∧
    ((serving .redBeforeWalk).now - 0).toNat < 2147483648 ∧
    (holding .active false true (serving .redBeforeWalk)).hold.state = .active ∧
    (holding .active false true (serving .redBeforeWalk)).crossings[(2 : Crossing)].service = some service ∧
    (holding .active false true (serving .redBeforeWalk)).calls[(2 : Crossing)] = [] ∧
    (service.entries.map Entry.source).Nodup ∧
    (holding .active false true (serving .redBeforeWalk)).crossings[(2 : Crossing)].recalled = false ∧
    (holding .active false true (serving .redBeforeWalk)).crossings[(2 : Crossing)].order = none := by decide

/-- The same in recall, with a STOP order pending, and with no ticket of it elsewhere. -/
theorem witness_HoldReturnsTheWalk_stop :
    (let s := holding .active false true (serving .redBeforeWalk)
     let t : State := { s with crossings := s.crossings.set 2 { s.crossings[2] with
       recalled := true, order := some ⟨first, false, .maint⟩ } }
     t.crossings[(2 : Crossing)].recalled = true ∧ t.crossings[(2 : Crossing)].order = some ⟨first, false, .maint⟩ ∧
     t.crossings[(2 : Crossing)].state = .redBeforeWalk ∧ t.crossings[(2 : Crossing)].service = some service ∧
     (∀ st : Station, t.line.tests[st].ticket? ≠ some first) ∧ t.ann.tallies = [] ∧ t.calls[(2 : Crossing)] = [] ∧
     t.journal.lost = 0 ∧ t.journal.fifo.length + (2 + service.entries.length + (stationsOf t 2).length) ≤ 128) ∧
    call.expiry.any (fun z => decide (((serving .redBeforeWalk).now - z).toNat < 2147483648)) = true := by decide

theorem witness_WalkClears :
    ((serving .walk).held = false ∧ crossingRec? (serving .walk) 2 = some crossing3 ∧
      (serving .walk).crossings[(2 : Crossing)].timer = some 0 ∧ (serving .walk).crossings[(2 : Crossing)].state = .walk ∧
      ((serving .walk).now - 0).toNat < 2147483648 ∧ (serving .walk).crossings[(2 : Crossing)].service = some service ∧
      0 < crossing3.accessibleSpeed ∧ 0 < crossing3.width) ∧
    ((serving .clearance).crossings[(2 : Crossing)].state = .clearance ∧
      1 < (serving .clearance).crossings[(2 : Crossing)].countdown ∧
      ((serving .clearance).now - ((0 : Time) - BitVec.ofNat 32 (1000 * (2 - 1)))).toNat < 2147483648 ∧
      ((serving .clearance).now - 0).toNat < 2147483648) := by decide

/-! ### Plan, hold, cues and announcements -/

theorem witness_CycleTicks :
    ((planned 38 none).held = false ∧ (planned 38 none).plan.inForce = some plan ∧ (planned 38 none).plan.nextTick = some 0 ∧
      ((planned 38 none).now - 0).toNat < 2147483648 ∧ 2147483648 ≤ ((planned 38 none).now - 1).toNat ∧
      (planned 38 none).plan.position + 1 < plan.cycle) ∧
    (plan.cycle ≤ (planned 39 none).plan.position + 1 ∧ (planned 39 none).plan.waiting = none) ∧
    (planned 39 (some (plan, first))).plan.waiting = some (plan, first) ∧
    ((planned 5 none).plan.windowOpen[(0 : Crossing)] = decide ((5 + 40 - 5) % 40 < 10) ∧
      (planned 5 none).plan.mask[(0 : Crossing)] = 0) ∧
    ((planned 20 none).plan.windowOpen[(0 : Crossing)] ≠ decide ((20 + 40 - 5) % 40 < 10) ∧
      (planned 20 none).crossings[(0 : Crossing)].state ≠ .vehGreen) := by decide

/-- A window that closes on crossing 3 in VEH_GREEN: commit due in RUN_FREE, and not with no call. -/
theorem witness_CycleTicks_commit :
    (let s : State := { green true [call] with plan := (planned 20 none).plan }
     s.plan.windowOpen[(2 : Crossing)] ≠ decide ((s.plan.position + plan.cycle - plan.start[2]) % plan.cycle < plan.width[2]) ∧
     commitDue { s with crossings := s.crossings.set 2 { s.crossings[2] with planMask := 2, mask := 0 } } 2 = true) ∧
    (let s : State := { green true [] with plan := (planned 20 none).plan }
     commitDue { s with crossings := s.crossings.set 2 { s.crossings[2] with planMask := 2, mask := 0 } } 2 = false) := by decide

/-- HOLD_IN at a raw level, its qualification at its end. -/
def qualifying (raw : Bool) (s : State) : State :=
  { s with hold := { s.hold with rawActive := raw, qualify := some 0 } }

theorem witness_HoldInQualifies :
    (town.held = false ∧ town.hold.rawActive = false ∧ true ≠ town.hold.rawActive ∧ true ≠ town.hold.pinActive) ∧
    (false ≠ (qualifying true town).hold.rawActive ∧ false = (qualifying true town).hold.pinActive) ∧
    ((qualifying true town).hold.qualify = some 0 ∧ ((qualifying true town).now - 0).toNat < 2147483648 ∧
      2147483648 ≤ ((qualifying true town).now - 1).toNat) ∧
    ((qualifying true town).hold.hostFlag = false ∧ (qualifying true town).hold.state = .idle ∧
      (qualifying true town).hold.pinActive = false ∧ (qualifying true town).hold.rawActive = true ∧
      (∀ c : Crossing, (qualifying true town).crossings[c].state ≠ .redBeforeWalk ∧
        (qualifying true town).crossings[c].state ≠ .walk)) ∧
    (qualifying true (holding .active true false town)).hold.hostFlag = true ∧
    ((qualifying false (holding .spent false true town)).hold.state = .spent ∧
      (qualifying false (holding .spent false true town)).hold.pinActive = true ∧
      (qualifying false (holding .spent false true town)).hold.rawActive = false) := by decide

/-- The level that ends an ACTIVE hold, and one that begins a hold with crossing 3 in WALK. -/
theorem witness_HoldInQualifies_crossings :
    ((qualifying false (holding .active false true (green true [call]))).hold.state = .active ∧
      (qualifying false (holding .active false true (green true [call]))).hold.pinActive = true ∧
      (qualifying false (holding .active false true (green true [call]))).hold.rawActive = false ∧
      (qualifying false (holding .active false true (green true [call]))).hold.hostFlag = false) ∧
    ((qualifying true (serving .walk)).hold.state = .idle ∧ (qualifying true (serving .walk)).hold.rawActive = true ∧
      (qualifying true (serving .walk)).crossings[(2 : Crossing)].state = .walk) ∧
    false = town.hold.rawActive ∧
    ((qualifying false (holding .idle false true town)).hold.state = .idle ∧
      (qualifying false (holding .idle false true town)).hold.pinActive = true ∧
      (qualifying false (holding .idle false true town)).hold.rawActive = false ∧
      (qualifying false (holding .idle false true town)).hold.hostFlag = false) := by decide

theorem witness_HoldSpentOrBegunInWalk :
    (town.held = false ∧ town.hold.state ≠ .active) ∧
    ((holding .active false true (green true [call])).hold.state = .active ∧
      (holding .active false true (green true [call])).hold.timer = some 0 ∧
      ((green true [call]).now - 0).toNat < 2147483648 ∧
      (green true [call]).crossings[(2 : Crossing)].minGreen.any (fun g => g.2) = true ∧
      (green true [call]).crossings[(2 : Crossing)].mode = .runFree ∧ (green true [call]).crossings[(2 : Crossing)].order = none ∧
      ∃ y ∈ (green true [call]).calls[(2 : Crossing)], (green true [call]).crossings[(2 : Crossing)].mask < y.grade) ∧
    ((serving .walk).crossings[(2 : Crossing)].state = .walk ∧ (serving .walk).crossings[(2 : Crossing)].walkStart = some 0 ∧
      2147483648 ≤ ((serving .walk).now - (0 + 4000#32)).toNat ∧ ((4000 : Time) - (0 + 4000#32)).toNat < 2147483648) := by
  decide

theorem witness_HoldSpentOrBegunInWalk_return :
    (holding .active false true (serving .redBeforeWalk)).held = false ∧
    (holding .active false true (serving .redBeforeWalk)).crossings[(2 : Crossing)].state = .redBeforeWalk ∧
    (holding .active false true (serving .redBeforeWalk)).crossings[(2 : Crossing)].timer = some 0 ∧
    ((serving .redBeforeWalk).now - 0).toNat < 2147483648 ∧
    (holding .active false true (serving .redBeforeWalk)).hold.state = .active := by decide

/-- Crossing 3 AWAITING, with its neighbours 1, 2 and 4 holding these cues. -/
def awaiting (x y z : Cue) : State :=
  { town with
    cues := { town.cues with
      queue := [2], cue := (((town.cues.cue.set 2 .awaiting).set 0 x).set 1 y).set 3 z }
    site := { town.site with hearing := town.site.hearing.set 2 [0, 1, 3] } }

theorem witness_CueGranted :
    ((awaiting .none .none .none).held = false ∧ (awaiting .none .none .none).cues.queue = 2 :: [] ∧
      crossingRec? (awaiting .none .none .none) 2 = some crossing3 ∧ 1 ≤ crossing3.home ∧ crossing3.home ≤ 3 ∧
      ¬∃ m ∈ (awaiting .none .none .none).site.hearing[(2 : Crossing)], ∃ p : Pattern, p.val + 1 = crossing3.home ∧
        (awaiting .none .none .none).cues.cue[m] = .pattern p) ∧
    ((∃ m ∈ (awaiting (.pattern 0) (.pattern 1) .none).site.hearing[(2 : Crossing)], ∃ p : Pattern, p.val + 1 = 1 ∧
        (awaiting (.pattern 0) (.pattern 1) .none).cues.cue[m] = .pattern p) ∧
      (∀ r : Pattern, r < 2 → ∃ m ∈ (awaiting (.pattern 0) (.pattern 1) .none).site.hearing[(2 : Crossing)],
        ∃ p : Pattern, p.val + 1 = r.val + 1 ∧ (awaiting (.pattern 0) (.pattern 1) .none).cues.cue[m] = .pattern p)) ∧
    (∀ r : Pattern, ∃ m ∈ (awaiting (.pattern 0) (.pattern 1) (.pattern 2)).site.hearing[(2 : Crossing)],
      ∃ p : Pattern, p.val + 1 = r.val + 1 ∧ (awaiting (.pattern 0) (.pattern 1) (.pattern 2)).cues.cue[m] = .pattern p) := by
  decide

theorem witness_PhraseReadsFill :
    (town.held = false ∧ town.cues.queue = [] ∧ town.ann.reads[0]? = none) ∧
    ((speaking context).ann.reads[0]? = some ⟨8, 0, 0x402000⟩ ∧ (speaking context).ann.contexts[(8 : Station)] = some context ∧
      context.serial = 0 ∧ context.readInFlight = true ∧
      context.fetchPlace (nameClips (speaking context) 8) = some (⟨0x402001, 3⟩, 0) ∧ context.buffer.length < 16 ∧ 0 < 3 ∧
      context.send = context.confirmed ∧ context.buffer = [] ∧ context.origin = .station) ∧
    ((speaking { context with buffer := [.good 7], send := 1 }).ann.contexts[(8 : Station)] =
        some { context with buffer := [.good 7], send := 1 } ∧
      ({ context with buffer := [.good 7], send := 1 } : Context).send ≠ context.confirmed ∧
      ({ context with buffer := [.good 7], send := 1 } : Context).fetchPlace (nameClips (speaking context) 8) =
        some (⟨0x402001, 3⟩, 1)) ∧
    ((speaking { context with serial := 3 }).ann.contexts[(8 : Station)] = some { context with serial := 3 } ∧
      ({ context with serial := 3 } : Context).serial ≠ 0) := by decide

/-- Station 9's announcement is that of an ANNOUNCE order with targets to come. -/
def tallied (n : Nat) : State :=
  let s := speaking { context with origin := .order (some first) }
  { s with ann := { s.ann with tallies := [⟨first, n, Vector.replicate 7 0⟩] } }

/-- The first read of an announcement: a good clip next, a FORMAT_FAULT next; and the tally of its order. -/
theorem witness_PhraseReadsFill_first :
    (context.send = context.confirmed ∧ context.buffer = [] ∧
      byteAt 0x00FB0807#32 ((0x402001 + 0) % 4 + 0) = 8 ∧ byteAt 0x00FB0007#32 ((0x402001 + 0) % 4 + 0) = 0 ∧
      min (3 - 0) (min (4 - (0x402001 + 0) % 4) (16 - 0)) = 3) ∧
    ((tallied 1).ann.contexts[(8 : Station)] = some { context with origin := .order (some first) } ∧
      (tallied 1).ann.tallies.find? (fun z => decide (z.ticket = first)) = some ⟨first, 1, Vector.replicate 7 0⟩ ∧
      (tallied 2).ann.tallies.find? (fun z => decide (z.ticket = first)) = some ⟨first, 2, Vector.replicate 7 0⟩) ∧
    ({ context with origin := .order none } : Context).origin = .order none := by decide

/-! ### Journal, status table and invariants -/

theorem witness_RecordsEnterTheFifo :
    (town.journal.lost = 0 ∧ town.journal.fifo.length < 128) ∧
    128 ≤ (List.replicate 128 gapRecord).length ∧
    (0 < ({ town.journal with lost := 1, fifo := List.replicate 126 gapRecord } : JournalWriter).lost ∧
      ({ town.journal with lost := 1, fifo := List.replicate 126 gapRecord } : JournalWriter).fifo.length ≤ 126) ∧
    126 < (List.replicate 127 gapRecord).length := by simp [town, State.reset, JournalWriter.reset]

theorem witness_DescriptorsOpened :
    ((writing .descriptor).held = false ∧ (writing .descriptor).journal.access = .descriptor ∧
      (writing .descriptor).orders.link = .following) ∧
    (bitsAt 0x00010010#32 16 1 = 1 ∧ bitsAt 0x00020010#32 16 1 = 0 ∧ bitsAt 0x00020010#32 17 1 = 1 ∧
      16 ≤ bitsAt 0x00020010#32 0 16 ∧ bitsAt 0x0000000F#32 0 16 < 16 ∧ bitsAt 0x0000000F#32 16 1 = 0) ∧
    ((0xFFFFC0#32 : Word).toNat % 4 = 0 ∧ (0xFFFFC0#32 : Word).toNat + 4 * 16 ≤ 0x1000000 ∧
      0x1000000 < (0xFFFFC4#32 : Word).toNat + 4 * 16 ∧ (0x9002#32 : Word).toNat % 4 ≠ 0) ∧
    ({ town with journal := (writing .descriptor).journal } : State).orders.link ≠ .following := by decide

/-- The journal STALLED while the link is FOLLOWING: idle, and with its descriptor being read; its re-read due and not due; and a
NUDGE with a look under way, with a slot free, and with none. -/
theorem witness_DescriptorsOpened_stalled :
    ((stalled .idle (linked .idle)).journal.state = .stalled ∧ (stalled .idle (linked .idle)).journal.access = .idle ∧
      (stalled .idle (linked .idle)).journal.nextReread = some 0 ∧ (town.now - 0).toNat < 2147483648 ∧
      2147483648 ≤ (town.now - 1).toNat ∧ (stalled .descriptor (linked .idle)).journal.access ≠ .idle) ∧
    ((stalled .idle (linked .idle)).orders.link = .following ∧ (stalled .idle (linked .idle)).orders.stopping = false ∧
      (stalled .idle (linked .idle)).orders.access = .idle ∧ (stalled .idle (linked .idle)).orders.heldQueue = [] ∧
      (∃ i : SlotIx, (stalled .idle (linked .idle)).orders.slots[i].state = .free)) ∧
    (stalled .descriptor (linked .link)).orders.access ≠ .idle ∧
    (∀ i : SlotIx, (full (stalled .idle (linked .idle))).orders.slots[i].state ≠ .free) := by decide

theorem witness_BuffersWritten :
    ((writing .record).held = false ∧ (writing .record).journal.current = some buffer ∧
      (writing .record).journal.access = .record ∧ (writing .record).journal.fifo = gapRecord :: [] ∧
      (writing .record).journal.state = .writing) ∧
    ((writing (.close 5)).journal.access = .close 5 ∧ (writing (.close 5)).journal.state = .writing) ∧
    ((writing .idle).journal.access = .idle ∧ buffer.flushEnd = some 0 ∧ buffer.flushExpired = false ∧
      ((writing .idle).now - 0).toNat < 2147483648) := by decide

/-- The next access: a record that just fits, one that does not, none, and a buffer whose flush timer has expired. -/
theorem witness_BuffersWritten_next :
    ((writing .idle).journal.state = .writing ∧ (writing .idle).journal.current = some buffer) ∧
    (gapRecord.length = 3 ∧ ({ buffer with used := 37 } : Buffer).used + gapRecord.length ≤ buffer.capacity ∧
      buffer.capacity < ({ buffer with used := 38 } : Buffer).used + gapRecord.length) ∧
    ({ (writing .idle).journal with fifo := [] } : JournalWriter).fifo = [] ∧
    ({ buffer with flushExpired := true } : Buffer).flushExpired = true ∧
    ((writing (.close 5)).journal.listAddr = some 0x2000 ∧ 0x2000 % 16 = 0 ∧ (writing (.close 5)).orders.link = .following) := by
  decide

/-- An event in which two blocks make a record each. -/
theorem witness_BuffersWritten_event :
    ((produce 0 (.plan 7 false) (produce 3 (.state .vehGreen .vehAmber .call) { town with made := [] })).made.map
      JournalRecord.producer) = [.sequencer 3, .planUnit] := by decide

/-- Records of one event that a rule puts in order, all of them or those of some, and two that none does. -/
theorem witness_BuffersWritten_order :
    let fault : JournalRecord := ⟨3, 0, .fault .conflict ⟨.green, .dontWalk⟩ (some ⟨.green, .walk⟩) 0⟩
    let taken : JournalRecord := ⟨3, 0, .state .redBeforeWalk .dark .order⟩
    let dropped : JournalRecord := ⟨3, 0, .callDropped 1 .notRunning⟩
    let plan : JournalRecord := ⟨0, 0, .plan 7 false⟩
    [fault, taken, dropped].Pairwise (fun a b => a.precedes b = true) ∧
    ([taken, plan, dropped].filter (fun r => decide (r.crossing = 3))).Pairwise (fun a b => a.precedes b = true) ∧
    plan.precedes taken = false ∧ taken.precedes plan = false ∧
    (⟨3, 0, .escalated .remote⟩ : JournalRecord).precedes taken = true ∧
    (⟨3, 0, .node 5 true 0 0 0⟩ : JournalRecord).precedes taken = true ∧
    (⟨3, 0, .press 8 .merged 3⟩ : JournalRecord).precedes ⟨3, 0, .press 8 .stuck 0⟩ = true ∧
    (⟨3, 0, .state .vehGreen .vehAmber .call⟩ : JournalRecord).precedes ⟨3, 0, .press 8 .absorbed 3⟩ = true := by decide

/-- The Status Writer with its period at its end, or at a word write. -/
def reporting (w : Option (Nat × Nat)) : State :=
  { linked .idle with status := { town.status with addr := some 0x8000, nextDue := some 0, write := w } }

theorem witness_StatusTableWritten :
    ((reporting none).held = false ∧ (reporting none).status.nextDue = some 0 ∧ (reporting none).status.addr = some 0x8000 ∧
      (reporting none).status.write = none ∧ ((reporting none).now - 0).toNat < 2147483648 ∧
      2147483648 ≤ ((reporting none).now - 1).toNat ∧ (reporting none).orders.link = .following ∧
      (reporting none).status.stopped = false) ∧
    ({ town with status := (reporting none).status } : State).orders.link ≠ .following ∧
    (reporting (some (0x8000, 141))).status.write = some (0x8000, 141) ∧ 141 < 142 ∧
    (reporting (some (0x8000, 142))).status.write = some (0x8000, 142) ∧
    (reporting (some (0x8000, 143))).status.write = some (0x8000, 143) := by decide

/-- A write that fails at its first and at its last word; crossing 3 and station 9 are configured, crossing 1 and station 1 are not. -/
theorem witness_StatusTableWritten_words :
    (reporting (some (0x8000, 0))).status.write = some (0x8000, 0) ∧ (143 ≤ 143 ∧ 0 ≤ 143) ∧
    (crossingRec? town 0 = none ∧ crossingRec? town 2 = some crossing3 ∧ headNode town 2 = some node ∧
      town.proofs[(2 : Crossing)] = some (proof Pair.dark)) ∧
    (stationRec? town 0 = none ∧ stationRec? town 8 = some ⟨5, 3, 0⟩ ∧ stationNode town 8 = some node) := by decide

theorem witness_OnlyBusWritesChangeMemory :
    exec (.strayLineBytes [1]) town = .next town ∧ (∀ answer, Instr.strayLineBytes [1] ≠ .orderTakenWriteDone answer) ∧
    (∀ answer, Instr.strayLineBytes [1] ≠ .resultDetailWriteDone answer) ∧
    (∀ answer, Instr.strayLineBytes [1] ≠ .resultStateWriteDone answer) ∧
    (∀ answer, Instr.strayLineBytes [1] ≠ .recordWriteDone answer) ∧
    (∀ answer, Instr.strayLineBytes [1] ≠ .bufferCloseWriteDone answer) ∧
    (∀ answer, Instr.strayLineBytes [1] ≠ .statusWordWriteDone answer) :=
  ⟨rfl, fun _ => nofun, fun _ => nofun, fun _ => nofun, fun _ => nofun, fun _ => nofun, fun _ => nofun⟩

/-- The town with a stray burst at the front of its queue. -/
def strayed : State := { town with pending := [.strayLineBytes [1]] }

theorem witness_step : step strayed = .next town := rfl

theorem witness_MemoryStaysCanonical : MemoryCanonical (reporting (some (0x8000, 143))) := by
  unfold MemoryCanonical
  decide

theorem witness_CommandedPairFollowsState : CommandedFollowsState strayed := by
  unfold CommandedFollowsState
  exact ⟨by decide, nofun, nofun⟩

theorem witness_LockoutStands : LockoutHolds strayed := by
  unfold LockoutHolds
  exact ⟨by decide, nofun⟩

/-- The town in LOCKOUT, for the second clause. -/
def lockedOut : State := { strayed with part := .lockout, safeOut := false }

/-- In LOCKOUT, with an ANNOUNCE that waits for the Engine. -/
theorem witness_LockoutStands_announce :
    LockoutHolds (announcing 2 [⟨0x402001, 3⟩] { town with part := .lockout, safeOut := false }) := by
  unfold LockoutHolds
  exact ⟨by decide, fun _ => by decide⟩

theorem witness_LockoutStands_lockout : LockoutHolds lockedOut ∧ lockedOut.part = .lockout := by
  unfold LockoutHolds
  exact ⟨⟨by decide, by decide⟩, rfl⟩

theorem witness_NeighboursNeverSharePatterns : CuesSound strayed := by
  unfold CuesSound
  exact ⟨by decide, by decide, by decide, by decide, by decide⟩

theorem witness_BuffersStayInBounds : JournalBounded strayed ∧ CursorsInOrder (speaking context) ∧
    GenerationOddWhileWriting strayed ∧ GenerationOddWhileWriting (reporting (some (0x8000, 143))) ∧ strayed.made = [] := by
  unfold JournalBounded CursorsInOrder
  exact ⟨by decide, by decide, (rfl : _ % 2 = 0), ⟨by decide, rfl⟩, rfl⟩

/-- Slot 1 HELD. -/
def ended : State :=
  { strayed with orders := { town.orders with
    heldQueue := [0], slots := town.orders.slots.set 0 ⟨1, .finished ⟨0x1000, 4, 1, true⟩ (Result.done 2)⟩ } }

theorem witness_OrderAndSiteTablesStayTrue_slots : HeldSlotsQueued ended := by
  unfold HeldSlotsQueued
  refine ⟨by decide, fun i => ?_⟩
  constructor
  · intro h
    have e : i = 0 := by simpa [ended] using h
    subst e
    exact ⟨_, _, rfl⟩
  · rintro ⟨h, r, e⟩
    by_cases m : i = 0
    · simp [ended, m]
    · have others : ∀ j : SlotIx, j ≠ 0 → ended.orders.slots[j].state = .free := by decide
      rw [others i m] at e
      cases e

/-- The town with every table of its site. -/
def tabled : State :=
  { strayed with site := { town.site with
    hearing := site.hearingTable, names := site.nameStore, usable := usableMarks (some site) town.site.phraseArea } }

theorem witness_OrderAndSiteTablesStayTrue_site : SiteTablesFollow tabled := by
  unfold SiteTablesFollow
  exact ⟨by decide, by decide, rfl⟩

/-- The link FOLLOWING with a stop that waits for the access under way, and an anchor read. -/
theorem witness_OrderAndSiteTablesStayTrue_link :
    LinkInOrder { stopping (linked .link) with pending := strayed.pending } ∧
    LinkInOrder { unlinked (.anchor 0x100 true true) with pending := strayed.pending } :=
  ⟨⟨fun _ => ⟨rfl, nofun, nofun⟩, nofun⟩, ⟨nofun, fun _ _ _ _ => rfl⟩⟩

/-! ### One step on a small state -/

/-- The state after a command. -/
def ran (i : Instr) (s : State) : State :=
  match exec i s with
  | .next t => t
  | .fault _ => s
  | .refused _ => s

theorem test_amber_ends : (ran (.amberExpiry 2) (at3 .vehAmber)).crossings[(2 : Crossing)].state = .redBeforeWalk ∧
    (ran (.amberExpiry 2) (at3 .vehAmber)).crossings[(2 : Crossing)].timer = some 2000 := by decide

/-- The record of the entry stands in the journal, and none waits. -/
theorem test_amber_recorded : (ran (.amberExpiry 2) (at3 .vehAmber)).journal.fifo =
      [⟨3, 0, .state .vehAmber .redBeforeWalk .timer⟩] ∧ (ran (.amberExpiry 2) (at3 .vehAmber)).made = [] := by decide

/-- The STATE and CALL_SERVED records of one sequencer keep their order. -/
theorem test_walk_recorded : (ran (.redBeforeWalkExpiry 2) (serving .redBeforeWalk)).journal.fifo =
    [⟨3, 0, .state .redBeforeWalk .walk .timer⟩, ⟨3, 0, .callServed 2 true 1 0 0⟩] := by decide

/-- The FAULT record of a conflict stands before the STATE record of the entry to FLASH, and FLASH_UNPROVEN before that of LOCKOUT. -/
theorem test_fault_recorded_first :
    (ran (.headReply [4, 0x21#8, 0, crc8 [4, 0x21#8, 0]])
      (polling 4 (.normal ⟨.green, .dontWalk⟩ 0) (green false []))).journal.fifo =
        [⟨3, 0, .fault .conflict ⟨.green, .dontWalk⟩ (some ⟨.green, .walk⟩) 0⟩, ⟨3, 0, .state .vehGreen .flash .fault⟩] ∧
    (ran (.headReply [4, 0x13#8, 0, crc8 [4, 0x13#8, 0]]) (polling 4 (.normal Pair.flash 0) (at3 .flash))).journal.fifo =
        [⟨3, 0, .fault .flashUnproven Pair.flash (some ⟨.red, .dontWalk⟩) 0⟩, ⟨3, 0, .state .flash .dark .fault⟩] := by
  decide +kernel

/-- An expired entry is escalated before its crossing's return under a hold. -/
theorem test_escalated_first : (ran (.redBeforeWalkExpiry 2) (holding .active false true (serving .redBeforeWalk))).journal.fifo =
    [⟨3, 0, .escalated .remote⟩, ⟨3, 0, .state .redBeforeWalk .vehGreen .hold⟩] := by decide

/-- The last ACTIVE station of crossing 3 is lost, the other LOST before it. -/
def lastFails (s : State) : State := polling 5 (.station default) (stationFailing 2 (allGone s))

/-- A reply window ends on station 9's poll, its node having heard it or not. -/
def unanswered (heard : Bool) (s : State) : State :=
  let x : Exchange := ⟨5, .station default⟩
  let s := { s with made := [], line := { s.line with exchange := none } }
  recordsEnter [] (scanOn (failNode x false (if heard then streetHear x (drawn s) else drawn s)))

/-- Every station of crossing 3 is then LOST, or one is not. -/
theorem witness_FailedExchanges_lost :
    (∀ su ∈ stationsOf town 2, stationLost (ran .replyWindowExpiry (lastFails (green false []))) su = true) ∧
    stationLost (ran .replyWindowExpiry (polling 5 (.station default) (stationFailing 2 (green false [])))) 9 = false := by
  have lost : ∀ heard, (∀ su ∈ stationsOf town 2, stationLost (unanswered heard (lastFails (green false []))) su = true) ∧
      stationLost (unanswered heard (polling 5 (.station default) (stationFailing 2 (green false [])))) 9 = false := by
    decide +kernel
  exact lost (Config.freeBool 0)

/-- Recall begins: its entry made with no commit due and with one, and not yet made in WALK. -/
theorem witness_FailedExchanges_recall :
    ((lastFails (green false [])).line.exchange = some ⟨5, .station default⟩ ∧ crossingOf town 8 = some 2 ∧
      (lastFails (green false [])).line.nodes[(5 : NodeAddr)] = some { node with failRun := 2 } ∧
      (green false []).crossings[(2 : Crossing)].recalled = false ∧ configured (green false []) 2 = true ∧
      (serving .walk).crossings[(2 : Crossing)].recalled = false ∧ (serving .walk).crossings[(2 : Crossing)].state = .walk) ∧
    (let called (e : Bool) : State := { lastFails (green e []) with
       crossings := (green e []).crossings.set 2 { (green e []).crossings[2] with recalled := true }
       calls := (green e []).calls.set 2 (listWith (green e []) [] .remote 1 false true) }
     commitDue (called false) 2 = false ∧ commitDue (called true) 2 = true ∧ listTells [] .remote 1 = true) := by decide

/-- An image whose crossing that starts has no station; that of the site has two. -/
theorem witness_ValidImageComesInForce_recall :
    (let bare := imageOf { site with stations := Vector.replicate 32 none }
     bare.getD 0 0 = 0x47574B31#32 ∧ (bare.getD 1 0).toNat = 144 ∧
     checksum (bare.getD 1 0) (slice bare 2 144) = bitsAt (bare.getD 146 0) 0 16 ∧
     validate (slice bare 2 144) none false = none ∧
     stationsOf (ran (.configImageReadDone (.other bare)) State.reset) 2 = []) ∧
    stationsOf (ran (.configImageReadDone (.other image)) State.reset) 2 ≠ [] := by decide +kernel

/-- A SET_MODE out of MAINT and a head in conflict end the test there. -/
theorem test_tests_aborted :
    (ran (.setMode 0) (ordered (.setMode 2 .dark) (testing (.loop ⟨1, 1⟩ 3 3) (at3 .maint)))).line.tests[(8 : Station)] = .none ∧
    (ran (.headReply [4, 0x21#8, 0, crc8 [4, 0x21#8, 0]])
      (polling 4 (.normal Pair.flash 0) (testing (.loop ⟨1, 1⟩ 3 3) (at3 .maint)))).line.tests[(8 : Station)] = .none := by
  decide +kernel

/-- 7.0 s of walk and 5.0 s of extension for an accessible service. -/
theorem test_walk_begins : (ran (.redBeforeWalkExpiry 2) (serving .redBeforeWalk)).crossings[(2 : Crossing)].state = .walk ∧
    (ran (.redBeforeWalkExpiry 2) (serving .redBeforeWalk)).crossings[(2 : Crossing)].timer = some 12000 ∧
    (ran (.redBeforeWalkExpiry 2) (serving .redBeforeWalk)).cues.queue = [2] := by decide

/-- 14.4 m at 0.8 m/s are 18 s. -/
theorem test_clearance_begins : (ran (.walkEndExpiry 2) (serving .walk)).crossings[(2 : Crossing)].state = .clearance ∧
    (ran (.walkEndExpiry 2) (serving .walk)).crossings[(2 : Crossing)].countdown = 18 ∧
    (ran (.walkEndExpiry 2) (serving .walk)).crossings[(2 : Crossing)].timer = some 18000 := by decide

theorem test_call_commits : (ran (.minGreenExpiry 2) (green false [call])).crossings[(2 : Crossing)].state = .vehAmber ∧
    (ran (.minGreenExpiry 2) (green false [call])).calls[(2 : Crossing)] = [] := by decide

theorem test_remote_call : ((ran (.remoteCall 0) (ordered (.remoteCall 2 5 true) (at3 .startup))).calls[(2 : Crossing)].map
    (fun e => (e.grade, e.accessible, e.expiry))) = [(5, true, none)] := by decide

theorem test_press : (ran (.stationReply stationBytes)
    (polling 5 (.station default) (answered (some 2) (at3 .clearance)))).lamps[(8 : Station)] = true := by decide +kernel

theorem test_conflict : (ran (.headReply [4, 0x21#8, 0, crc8 [4, 0x21#8, 0]])
    (polling 4 (.normal ⟨.green, .dontWalk⟩ 0) (green false []))).crossings[(2 : Crossing)].state = .flash := by decide +kernel

theorem test_lockout : (ran (.headReply [4, 0x13#8, 0, crc8 [4, 0x13#8, 0]])
    (polling 4 (.normal Pair.flash 0) (at3 .flash))).part = .lockout := by decide +kernel

theorem test_grant : (ran .cueGrant (awaiting .none .none .none)).cues.cue[(2 : Crossing)] = .pattern 0 ∧
    (ran .cueGrant (awaiting (.pattern 0) .none .none)).cues.cue[(2 : Crossing)] = .pattern 1 ∧
    (ran .cueGrant (awaiting (.pattern 0) (.pattern 1) (.pattern 2))).cues.cue[(2 : Crossing)] = .name := by decide

theorem test_phrase_read : (ran (.phraseReadDone 0 (.word 0x00FB0807#32)) (speaking context)).ann.contexts[(8 : Station)].map
    (fun x => x.buffer) = some [.good 8, .formatFault, .formatFault] := by decide

theorem test_tick_wraps : (ran .cycleTick (planned 39 none)).plan.position = 0 ∧
    (ran .cycleTick (planned 38 none)).plan.position = 39 := by decide

theorem test_hold_spent : (ran .holdTimerExpiry (holding .active false true town)).hold.state = .spent ∧
    (ran .holdTimerExpiry (holding .active false true town)).regs.attention = 16 := by decide

/-- An ESCALATED record: kind 11, 3 words, crossing 3. -/
theorem test_record_written : Memory.readWord (ran (.recordWriteDone .ok) (writing .record)).mem 0x9000 = some 0x0000330B#32 ∧
    (ran (.recordWriteDone .ok) (writing .record)).journal.fifo = [] := by decide

theorem test_close_written : Memory.readWord (ran (.bufferCloseWriteDone .ok) (writing (.close 5))).mem 0x2004 =
      some 0x00010028#32 ∧
    (ran (.bufferCloseWriteDone .ok) (writing (.close 5))).journal.cursor = 1 := by decide

theorem test_status_begins : (ran .statusPeriodDue (reporting none)).status.generation = 1 ∧
    (ran .statusPeriodDue (reporting none)).status.write = some (0x8000, 0) := by decide

/-- TAKEN keeps the kind, the parameter length and the notify flag. -/
theorem test_taken_written : Memory.readWord (ran (.orderTakenWriteDone .ok) taking3).mem 0x1004 = some 0x01010402#32 ∧
    (ran (.orderTakenWriteDone .ok) taking3).orders.handed = [⟨⟨0, 1⟩, .setMode 2 .runFree⟩] := by decide

theorem test_result_written :
    Memory.readWord (ran (.resultDetailWriteDone .ok) (linked (.detail 3 ⟨0x1000, 4, 1, true⟩ (Result.done 2)))).mem 0x1008 =
      some 0x00000020#32 := by decide

theorem test_valid_image_starts : (ran (.configImageReadDone (.other image)) State.reset).part = .running ∧
    (ran (.configImageReadDone (.other image)) State.reset).crossings[(2 : Crossing)].state = .startup := by decide +kernel

end Sys2Proof.Tests
end

section
/-! SUPPORT. The street line: what a good reply and a failed exchange make of a node table entry (R17, R20), and the
entries of a new node map (R8). -/

namespace Sys2Proof.Machine

/-! ### A good reply -/

/-- The second good reply in a run finds a LOST node. -/
theorem NodeEntry.onGood_of_found {e : NodeEntry} (lost : e.lost = true) (second : 2 ≤ e.goodRun + 1) :
    e.onGood = { e with good := sat16 e.good, lost := false, failRun := 0, goodRun := 0 } :=
  if_pos (by simp only [lost, second, decide_true, Bool.and_self])

/-- Every other good reply leaves the node state and lengthens the good run. -/
theorem NodeEntry.onGood_of_not_found {e : NodeEntry} (h : e.lost = false ∨ e.goodRun + 1 < 2) :
    e.onGood = { e with good := sat16 e.good, failRun := 0, goodRun := min 3 (e.goodRun + 1) } := by
  refine if_neg fun found => ?_
  obtain ⟨lost, second⟩ := Bool.and_eq_true_iff.mp found
  rcases h with active | first
  · exact Bool.false_ne_true (active.symm.trans lost)
  · exact absurd first (Nat.not_lt.mpr (of_decide_eq_true second))

/-! ### A failed exchange -/

/-- The count that a failed exchange raises: violations, or misses (R17). -/
def NodeEntry.countFailure (violation : Bool) (e : NodeEntry) : NodeEntry :=
  if violation then { e with violation := sat16 e.violation } else { e with miss := sat16 e.miss }

@[simp] theorem NodeEntry.countFailure_lost (v : Bool) (e : NodeEntry) : (e.countFailure v).lost = e.lost := by
  cases v <;> rfl
@[simp] theorem NodeEntry.countFailure_failRun (v : Bool) (e : NodeEntry) : (e.countFailure v).failRun = e.failRun := by
  cases v <;> rfl

/-- The third failure in a run loses an ACTIVE node. -/
theorem NodeEntry.onFail_of_lost_now {e : NodeEntry} (v : Bool) (active : e.lost = false) (third : 3 ≤ e.failRun + 1) :
    e.onFail v = { e.countFailure v with lost := true, failRun := 0, goodRun := 0, probeCount := 0 } := by
  rw [← countFailure_lost v e] at active
  rw [← countFailure_failRun v e] at third
  exact if_pos (Bool.and_eq_true_iff.mpr ⟨congrArg not active, decide_eq_true third⟩)

/-- Every other failure leaves the node state and lengthens the failure run. -/
theorem NodeEntry.onFail_of_not_lost_now {e : NodeEntry} (v : Bool) (h : e.lost = true ∨ e.failRun + 1 < 3) :
    e.onFail v = { e.countFailure v with goodRun := 0, failRun := min 3 (e.failRun + 1) } := by
  rw [← countFailure_lost v e, ← countFailure_failRun v e] at h
  rw [← countFailure_failRun v e]
  refine if_neg fun lostNow => ?_
  obtain ⟨active, third⟩ := Bool.and_eq_true_iff.mp lostNow
  rcases h with lost | early
  · exact Bool.false_ne_true ((congrArg not lost).symm.trans active)
  · exact absurd early (Nat.not_lt.mpr (of_decide_eq_true third))

/-! ### A new node map -/

theorem nodeTableOf_of_configured {m : Vector NodeKind 64} {a : NodeAddr} (configured : m[a] ≠ .none) :
    (nodeTableOf m)[a] = some NodeEntry.fresh := by
  refine (Vector.getElem_ofFn a.isLt).trans ?_
  cases kind : m[a] with
  | none => exact absurd kind configured
  | head c => rfl
  | station st => rfl

/-! ### The statement -/

/-- Settles O35: each clause is one of the two cases of a good reply or of a failed exchange, read field by field. -/
theorem nodeStatesAndRuns : Obligations.NodeStatesAndRuns := by
  refine ⟨fun e _ _ => ⟨fun active => ?_, fun lost first => ?_, fun lost second => ?_, fun v => ?_⟩,
    fun m a configured => ⟨_, nodeTableOf_of_configured configured, rfl, rfl, rfl, rfl, rfl, rfl⟩⟩
  · rw [NodeEntry.onGood_of_not_found (.inl active)]
    exact ⟨active, rfl, rfl⟩
  · rw [NodeEntry.onGood_of_not_found (.inr first)]
    exact ⟨lost, rfl, Nat.min_eq_right (by omega)⟩
  · rw [NodeEntry.onGood_of_found lost second]
    exact ⟨rfl, rfl, rfl⟩
  · refine ⟨fun lost => ?_, fun active early => ?_, fun active third => ?_⟩
    · rw [NodeEntry.onFail_of_not_lost_now v (.inl lost)]
      exact ⟨(e.countFailure_lost v).trans lost, rfl, rfl⟩
    · rw [NodeEntry.onFail_of_not_lost_now v (.inr early)]
      exact ⟨(e.countFailure_lost v).trans active, rfl, Nat.min_eq_right (by omega)⟩
    · rw [NodeEntry.onFail_of_lost_now v active third]
      exact ⟨rfl, rfl, rfl, rfl⟩

end Sys2Proof.Machine
end

section
/-! SUPPORT. The Cue Allocator: which hearing neighbours hold a pattern, what R132 grants, and what the answer to the
request at the head of the queue leaves (R131). -/

namespace Sys2Proof.Machine

/-! ### The patterns held around a crossing -/

theorem heldAround_iff (s : State) (c : Crossing) (p : Pattern) :
    heldAround s c p = true ↔ ∃ m ∈ s.site.hearing[c], s.cues.cue[m] = .pattern p := by
  simp only [heldAround, List.any_eq_true, decide_eq_true_eq]

/-- A pattern is named by its number, counted from 1 (R2). -/
theorem exists_pattern_numbered (p : Pattern) (P : Pattern → Prop) : (∃ q : Pattern, q.val + 1 = p.val + 1 ∧ P q) ↔ P p := by
  refine ⟨?_, fun h => ⟨p, rfl, h⟩⟩
  rintro ⟨q, number, h⟩
  rwa [Fin.ext (Nat.succ.inj number)] at h

/-- The home pattern is the one whose number the site gives the crossing (R2). -/
theorem homePattern_number {s : State} {c : Crossing} {x : CrossingRec} (known : crossingRec? s c = some x)
    (low : 1 ≤ x.home) (high : x.home ≤ 3) : (homePattern s c).val + 1 = x.home := by
  have record : crossingRec s c = x := by rw [crossingRec, known, Option.getD_some]
  rw [homePattern, record]
  obtain home | home | home : x.home = 1 ∨ x.home = 2 ∨ x.home = 3 := by omega
  all_goals rw [home]; rfl

/-! ### What is granted (R132) -/

theorem grantFor_of_home_free {s : State} {c : Crossing} (free : ¬heldAround s c (homePattern s c) = true) :
    grantFor s c = some (homePattern s c) := if_neg free

/-- With the home pattern held, the grant is the first of the patterns, in ascending order, that is not. -/
theorem grantFor_of_home_held {s : State} {c : Crossing} (held : heldAround s c (homePattern s c) = true) :
    grantFor s c = (List.finRange 3).find? (fun p => !heldAround s c p) := if_pos held

/-- The search over the patterns in ascending order finds the lowest that passes. -/
theorem find?_finRange_of_lowest {n : Nat} {f : Fin n → Bool} {p : Fin n} (passes : f p = true)
    (below : ∀ r < p, f r = false) : (List.finRange n).find? f = some p := by
  refine List.find?_eq_some_iff_getElem.mpr ⟨passes, p.val, by rw [List.length_finRange]; exact p.isLt, ?_, ?_⟩
  · rw [List.getElem_finRange]
    rfl
  · intro j lower
    rw [List.getElem_finRange, below _ lower]
    rfl

theorem grantFor_of_lowest {s : State} {c : Crossing} {p : Pattern} (held : heldAround s c (homePattern s c) = true)
    (free : ¬heldAround s c p = true) (below : ∀ r < p, heldAround s c r = true) : grantFor s c = some p := by
  rw [grantFor_of_home_held held]
  refine find?_finRange_of_lowest ?_ fun r lower => ?_
  · rw [eq_false_of_ne_true free, Bool.not_false]
  · rw [below r lower, Bool.not_true]

theorem grantFor_of_all_held {s : State} {c : Crossing} (held : ∀ p, heldAround s c p = true) : grantFor s c = none := by
  rw [grantFor_of_home_held (held _), List.find?_eq_none]
  intro p _
  rw [held p, Bool.not_true]
  exact Bool.false_ne_true

/-- No hearing neighbour holds the pattern that is granted. -/
theorem not_heldAround_of_grantFor {s : State} {c : Crossing} {p : Pattern} (granted : grantFor s c = some p) :
    ¬heldAround s c p = true := by
  by_cases held : heldAround s c (homePattern s c) = true
  · rw [grantFor_of_home_held held] at granted
    have free : (!heldAround s c p) = true := List.find?_some (p := fun p => !heldAround s c p) granted
    rwa [Bool.not_eq_true', ← Bool.not_eq_true] at free
  · rw [grantFor_of_home_free held] at granted
    rwa [← Option.some.inj granted]

/-! ### The answer to the head of the queue (R131) -/

/-- The cue of a grant: its pattern, or the name cue. -/
def grantedCue : Option Pattern → Cue
  | some p => .pattern p
  | none => .name

theorem grantedCue_some (p : Pattern) : grantedCue (some p) = .pattern p := rfl
theorem grantedCue_none : grantedCue none = .name := rfl

theorem grantedCue_eq_pattern_iff {g : Option Pattern} {p : Pattern} : grantedCue g = .pattern p ↔ g = some p := by
  cases g with
  | some q => rw [grantedCue_some, Cue.pattern.injEq, Option.some.injEq]
  | none => exact ⟨nofun, nofun⟩

/-- What a grant makes of the name-cue positions: a pattern leaves them, the name cue begins at 0. -/
def grantedNamePos (s : State) (c : Crossing) : Option Pattern → Vector Nat 32
  | some _ => s.cues.namePos
  | none => setAll s.cues.namePos (stationsOf s c) 0

/-- What the allocator holds when the crossing at the head of its queue has been answered. -/
def cuesAnswered (s : State) (c : Crossing) (rest : List Crossing) : CueAllocator where
  cue := s.cues.cue.set c (grantedCue (grantFor s c))
  queue := rest
  namePos := grantedNamePos s c (grantFor s c)

theorem cuesAnswered_cue_same (s : State) (c : Crossing) (rest : List Crossing) :
    (cuesAnswered s c rest).cue[c] = grantedCue (grantFor s c) := set_same _ _ _

theorem cuesAnswered_cue_other (s : State) {c d : Crossing} (rest : List Crossing) (other : d ≠ c) :
    (cuesAnswered s c rest).cue[d] = s.cues.cue[d] := set_other _ _ _ _ other

theorem cuesAnswered_namePos_of_pattern {s : State} {c : Crossing} {p : Pattern} (rest : List Crossing)
    (granted : grantFor s c = some p) : (cuesAnswered s c rest).namePos = s.cues.namePos := by
  rw [cuesAnswered, granted, grantedNamePos]

theorem cuesAnswered_namePos_of_name {s : State} {c : Crossing} (rest : List Crossing) (granted : grantFor s c = none)
    (st : Station) :
    (cuesAnswered s c rest).namePos[st] = if st ∈ stationsOf s c then 0 else s.cues.namePos[st] := by
  rw [cuesAnswered, granted]
  exact setAll_get _ _ _ st

theorem cueAnswer_eq (c : Crossing) (rest : List Crossing) (s : State) :
    cueAnswer c rest s = produce (num c) (.cue (grantFor s c)) { s with cues := cuesAnswered s c rest } := by
  unfold cueAnswer cuesAnswered
  cases grantFor s c with
  | some p => rfl
  | none => rfl

/-- CUE_GRANT changes the cues and takes the one record of the grant. -/
theorem exec_cueGrant_eq {s : State} {c : Crossing} {rest : List Crossing} (released : s.held = false)
    (queued : s.cues.queue = c :: rest) : exec .cueGrant s = .next { s with
      cues := cuesAnswered s c rest, journal := recorded s (num c) (.cue (grantFor s c)) } := by
  change execCueGrant s = _
  rw [execCueGrant, live_next s _ released]
  dsimp only
  rw [queued]
  change Host.Outcome.next (recordsEnter s.made (cueAnswer c rest { s with made := [] })) = _
  rw [cueAnswer_eq, recordsEnter_one _ _ ⟨num c, s.now, .cue (grantFor s c)⟩ rfl]
  rfl

/-- No hearing neighbour, but for the crossing itself, holds the pattern that the answer gives. -/
theorem cuesAnswered_pattern_apart {s : State} {c : Crossing} {rest : List Crossing} {p : Pattern}
    (given : (cuesAnswered s c rest).cue[c] = .pattern p) :
    ∀ m ∈ s.site.hearing[c], m ≠ c → (cuesAnswered s c rest).cue[m] ≠ .pattern p := by
  intro m hears other shared
  rw [cuesAnswered_cue_same, grantedCue_eq_pattern_iff] at given
  rw [cuesAnswered_cue_other s rest other] at shared
  exact not_heldAround_of_grantFor given ((heldAround_iff s c p).mpr ⟨m, hears, shared⟩)

/-! ### The statement -/

/-- Settles O47: the three grants of R132, in their order, of the answer that CUE_GRANT gives. -/
theorem cueGranted : Obligations.CueGranted := by
  intro s c rest x released queued known low high heldBy
  have heldBy_iff (p : Pattern) : heldBy (p.val + 1) ↔ heldAround s c p = true :=
    (exists_congr fun m => and_congr_right fun _ => exists_pattern_numbered p _).trans (heldAround_iff s c p).symm
  have home := homePattern_number known low high
  rw [← home]
  simp only [heldBy_iff]
  refine ⟨_, exec_cueGrant_eq released queued, rfl, fun d other => cuesAnswered_cue_other s rest other, ?_, ?_, ?_,
    fun p given => cuesAnswered_pattern_apart given, rfl⟩
  · intro free
    have granted := grantFor_of_home_free free
    exact ⟨_, rfl, by rw [cuesAnswered_cue_same, granted, grantedCue_some], congrArg (recorded s (num c) <| .cue ·) granted,
      cuesAnswered_namePos_of_pattern rest granted⟩
  · intro p held free below
    have granted := grantFor_of_lowest held free below
    exact ⟨by rw [cuesAnswered_cue_same, granted, grantedCue_some], congrArg (recorded s (num c) <| .cue ·) granted,
      cuesAnswered_namePos_of_pattern rest granted⟩
  · intro held
    have granted := grantFor_of_all_held held
    exact ⟨by rw [cuesAnswered_cue_same, granted, grantedCue_none], congrArg (recorded s (num c) <| .cue ·) granted,
      cuesAnswered_namePos_of_name rest granted⟩

end Sys2Proof.Machine
end

section
/-! SUPPORT. The journal FIFO: what becomes of a record in each branch of its entry (R170), beside `enter_free`, the entry
with nothing lost and a place free. -/

namespace Sys2Proof.Machine

section
variable {j : JournalWriter}

/-- With nothing lost and no place free, the record is the first one lost. -/
theorem JournalWriter.enter_of_full (r : JournalRecord) (noneLost : j.lost = 0) (full : 128 ≤ j.fifo.length) :
    j.enter r = { j with lost := 1 } :=
  (if_pos noneLost).trans (if_neg (Nat.not_lt.mpr full))

/-- After a loss, with two places free, a GAP with the lost count and the record's own time goes ahead of the record. -/
theorem JournalWriter.enter_behind_gap (r : JournalRecord) (someLost : 0 < j.lost) (twoFree : j.fifo.length ≤ 126) :
    j.enter r = { j with fifo := j.fifo ++ [⟨0, r.time, .gap j.lost⟩, r], lost := 0 } :=
  (if_neg (Nat.ne_of_gt someLost)).trans (if_pos (Nat.add_le_add_right twoFree 2))

/-- After a loss, with fewer than two places free, the record is lost too, and the count saturates. -/
theorem JournalWriter.enter_of_no_room_for_gap (r : JournalRecord) (someLost : 0 < j.lost) (short : 126 < j.fifo.length) :
    j.enter r = { j with lost := min (j.lost + 1) 4294967295 } :=
  (if_neg (Nat.ne_of_gt someLost)).trans (if_neg (Nat.not_le.mpr (Nat.add_lt_add_right short 2)))

end

/-! ### The statement -/

/-- Settles O49: the four branches of R170, by whether records were lost and whether the places needed are free. -/
theorem recordsEnterTheFifo : Obligations.RecordsEnterTheFifo :=
  fun j r => ⟨enter_free j r, JournalWriter.enter_of_full r, JournalWriter.enter_behind_gap r,
    JournalWriter.enter_of_no_room_for_gap r⟩

end Sys2Proof.Machine
end
